-- ==== Sys2Proof/Word.lean ====
section
/-! DEFINITION. The word types of the block: bytes, counters, timers and register numbers. -/

namespace Sys2Proof

/-- The unit of every buffer and stream (20_memory.md R61). -/
abbrev Byte := BitVec 8

/-- The 16-bit registers: `tx_plen`, `rx_len`, `rx_need` (10_state.md R27, R28, R34). -/
abbrev Half := BitVec 16

/-- The 17-bit counters and lengths: `rx_cnt`, `rx_poff`, `rx_plen`, `tx_flen`, `tx_idx` (10_state.md R26, R32, R35). -/
abbrev Count := BitVec 17

/-- `TW` = 32 bits: the timeout registers and the timer (00_scope.md R8, D5). -/
abbrev Ticks := BitVec 32

/-- A host register number, `HOST_ADDR_BITS` = 19 bits (10_state.md R39). -/
abbrev RegNo := BitVec 19

/-- The host's data path, as wide as the widest register (10_state.md R39; log 11). -/
abbrev HostWord := BitVec 32

end Sys2Proof
end

