-- ==== Sys2Proof/Syntax.lean ====
section
/-! DEFINITION. The instructions (one constructor per row of spec/opcode_table.json) and the events the outside
world gives the block: register accesses, source answers and turns. -/

namespace Sys2Proof

/-- The two encoding spaces: the command word written to `CMD` (30_encoding.md R100) and the bytes on the wire
(30_encoding.md R90). -/
inductive Port
  | cmd
  | wire
deriving DecidableEq, Repr, Inhabited

/-- The rows of spec/opcode_table.json. -/
inductive Instr
  /-- NOP, 30_encoding.md R104. -/
  | nop
  /-- CHECKSUM, 40_checksum.md R121. -/
  | checksum
  /-- BUILD, 41_frame_build_parse.md R141. -/
  | build
  /-- SEND, 41_frame_build_parse.md R143. -/
  | send
  /-- PARSE, 41_frame_build_parse.md R147. -/
  | parse
  /-- READ with its `STRICT` operand, 42_frame_reader.md R171. -/
  | read (strict : Bool)
  /-- RECV, 42_frame_reader.md R186. -/
  | recv
  /-- RESERVED_CMD with the fields OP [2:0], STRICT [3] and zero [7:4], 30_encoding.md R104. -/
  | reservedCmd (op : BitVec 3) (strict : BitVec 1) (zero : BitVec 4)
  /-- FRAME, the wire frame that carries this payload, 30_encoding.md R90. -/
  | frame (payload : List Byte)
  /-- STX_HUNT, the start byte on the wire, 42_frame_reader.md R172. -/
  | stxHunt
deriving DecidableEq, Repr, Inhabited

/-- The encoding space of an instruction. -/
def Instr.port : Instr → Port
  | .nop => .cmd
  | .checksum => .cmd
  | .build => .cmd
  | .send => .cmd
  | .parse => .cmd
  | .read _ => .cmd
  | .recv => .cmd
  | .reservedCmd _ _ _ => .cmd
  | .frame _ => .wire
  | .stxHunt => .wire

/-- The registers of the host's register space by name (10_state.md R39, R46). -/
inductive Reg
  | cmd | txStatus | txPlen | txSeed | txLrc | txFlen | txIdx
  | rxStatus | rxTidle | rxTframe | rxCnt | rxLen | rxPoff | rxPlen | rxLrc
  | txPay (i : Nat)
  | txFrm (i : Nat)
  | rxBuf (i : Nat)
  | reserved
deriving DecidableEq, Repr, Inhabited

/-- One host step: a read or a write of one whole register (00_scope.md R12, 20_memory.md R73). -/
inductive HostAccess
  | read (reg : RegNo)
  | write (reg : RegNo) (value : HostWord)
deriving DecidableEq, Repr, Inhabited

/-- The two kinds of answer of `SrcRead()` (20_memory.md R64): a byte, or `none`, which is a tick. -/
inductive SrcAnswer
  | byte (b : Byte)
  | tick
deriving DecidableEq, Repr, Inhabited

/-- What the collaborator does to the byte source (60_exceptions.md R255, R261): it opens it, or the source is
closed, absent, fails or breaks its contract. -/
inductive SourceEvent
  | opened
  | lost
deriving DecidableEq, Repr, Inhabited

/-- Whose step comes next (00_scope.md R12). `tx` carries the readiness of the byte sink (20_memory.md R69).
`wire` presents bytes as the source's next answers and gives the RX unit one turn for each (log 8). -/
inductive Turn
  | host (access : HostAccess)
  | rx
  | tx (sinkReady : Bool)
  | wire (bytes : List Byte)
  | source (event : SourceEvent)
  | reset
deriving DecidableEq, Repr, Inhabited

end Sys2Proof
end

