-- ==== Sys2Proof/Config.lean ====
section
/-! DEFINITION. What an implementation fixes and what the spec leaves open: the buffer sizes, the open parameter
`T_FRAME_DEFAULT`, and the free values, which are opaque. -/

namespace Sys2Proof

/-- The three byte buffers (20_memory.md R60). -/
inductive BufferName
  | rxBuf
  | txPay
  | txFrm
deriving DecidableEq, Repr, Inhabited

namespace Config

/-- `RX_BUF_SIZE` (00_scope.md R8, D19). -/
def rxBufSize : Nat := 65539

/-- `TX_PAY_SIZE` (00_scope.md R8, D19). -/
def txPaySize : Nat := 65535

/-- `TX_FRM_SIZE` (00_scope.md R8, D19). -/
def txFrmSize : Nat := 65539

/-- `T_FRAME_DEFAULT`, the OPEN reset value of `RX_TFRAME` (00_scope.md R8, D3; log 4). No claim knows its value. -/
opaque tFrameDefault : Ticks

/-- The byte a buffer holds at an index nothing has written since the reset numbered `epoch` (10_state.md R44, R50,
U9 "any value"; log 5). -/
opaque freeByte : BufferName → (epoch : Nat) → (index : Nat) → Byte

/-- The answer of `SrcRead()` where the list of answers in State is exhausted (20_memory.md R64; log 2). -/
opaque freeAnswer : Nat → SrcAnswer

/-- Whose turn comes next where the agenda in State is exhausted (00_scope.md R12; log 1). -/
opaque freeTurn : Nat → Turn

end Config

end Sys2Proof
end

