-- ==== Sys2Proof/Machine/Codec.lean ====
section
/-! DEFINITION. The pure byte functions of the spec: the reserved command fields, the XOR fold, the length field, `build`
and `parse`. They know nothing of the machine's state (40_checksum.md R128). -/

namespace Sys2Proof.Machine

/-- `STX`, the start byte (00_scope.md R7). -/
def stx : Byte := 0x02#8

/-- `ETX`, the end byte (00_scope.md R7). -/
def etx : Byte := 0x03#8

/-- `LRC_SEED`, the seed of the checksum the encoder appends, and the XOR of a whole frame (00_scope.md R7, C1;
log 15). -/
def lrcSeed : Byte := 0x02#8

/-- The reserved command values of 30_encoding.md R104: `OP` = 7; `STRICT` = 1 with `OP` other than 5; any of the
bits [7:4] set. -/
def reservedFields (op : BitVec 3) (strict : BitVec 1) (zero : BitVec 4) : Bool :=
  op == 7#3 || (strict == 1#1 && op != 5#3) || zero != 0#4

/-- `MAX_PAYLOAD` (00_scope.md R7, C4). -/
def maxPayload : Nat := 65534

/-- `fold(B, s)` (40_checksum.md R120). -/
def fold (bytes : List Byte) (seed : Byte) : Byte :=
  bytes.foldl (fun acc b => acc ^^^ b) seed

/-- `u16_be(v)` (00_scope.md R10): the high byte first. -/
def u16be (v : Nat) : List Byte :=
  [BitVec.ofNat 8 (v / 256), BitVec.ofNat 8 (v % 256)]

/-- The decoder's length field, `hi * 256 + lo` (30_encoding.md R97). -/
def lengthField (hi lo : Byte) : Nat := hi.toNat * 256 + lo.toNat

/-- The frame without its checksum byte: `H` of 41_frame_build_parse.md R140. -/
def frameHead (payload : List Byte) : List Byte :=
  stx :: (u16be (payload.length + 1) ++ payload ++ [etx])

/-- The checksum byte `c = fold(H, 0x02)` (41_frame_build_parse.md R140). -/
def frameChecksum (payload : List Byte) : Byte := fold (frameHead payload) lrcSeed

/-- `build(P)` (41_frame_build_parse.md R140), defined there for at most 65534 bytes. -/
def buildFrame (payload : List Byte) : List Byte := frameHead payload ++ [frameChecksum payload]

/-- `parse(F) = F[3 .. len(F)-3]`, empty when `len(F) < 5` (41_frame_build_parse.md R146). -/
def parseFrame (frame : List Byte) : List Byte := (frame.take (frame.length - 2)).drop 3

/-- The byte sequences a READ returns `OK` (30_encoding.md R106). -/
abbrev AcceptedFrame (frame : List Byte) : Prop :=
  4 ≤ frame.length ∧ frame[0]? = some stx ∧
    frame.length = lengthField (frame.getD 1 0) (frame.getD 2 0) + 4 ∧ fold frame 0 = lrcSeed

end Sys2Proof.Machine
end

