-- ==== Sys2Proof/WellFormed.lean ====
section
/-! DEFINITION. Which terms of `Instr` stand for an encoding of the spec. -/

namespace Sys2Proof

open Machine (reservedFields maxPayload)

/-- A `reservedCmd` carries a reserved value (R104) and a `frame` at most 65534 payload bytes (30_encoding.md R90);
every other constructor has no operand that could be ill formed. -/
def Instr.wf : Instr → Bool
  | .nop => true
  | .checksum => true
  | .build => true
  | .send => true
  | .parse => true
  | .read _ => true
  | .recv => true
  | .reservedCmd op strict zero => reservedFields op strict zero
  | .frame payload => decide (payload.length ≤ maxPayload)
  | .stxHunt => true

end Sys2Proof
end

