-- ==== Sys2Proof/Decode.lean ====
section
/-! DEFINITION. The decoder, total on any bytes of either encoding space, and after it the encoder. -/

namespace Sys2Proof

open Machine (reservedFields stx etx lrcSeed fold lengthField parseFrame buildFrame)

/-- Why bytes are no instruction. The command space has no such byte: every value of `CMD` has a meaning (R104). -/
inductive DecodeError
  /-- A command is one 8-bit word (30_encoding.md R100). -/
  | commandIsOneByte
  /-- A wire word holds at least one byte. -/
  | emptyWireWord
  /-- A built frame has at least 5 bytes (30_encoding.md R98). -/
  | frameTooShort
  /-- The start byte is not 0x02 (30_encoding.md R91). -/
  | notAStartByte
  /-- The length field does not give the number of bytes (30_encoding.md R92, R98). -/
  | lengthMismatch
  /-- The end byte is not 0x03 (30_encoding.md R94). -/
  | notAnEndByte
  /-- The XOR of the whole frame is not 0x02 (30_encoding.md R95). -/
  | checksumMismatch
deriving DecidableEq, Repr

/-- The command word (30_encoding.md R100, R101, R104): `OP` = bits [2:0], `STRICT` = bit 3, bits [7:4] zero. -/
def decodeCmd (w : Byte) : Instr :=
  let op := w.extractLsb' 0 3
  let strict := w.extractLsb' 3 1
  let zero := w.extractLsb' 4 4
  if reservedFields op strict zero then .reservedCmd op strict zero
  else
    match op.toNat with
    | 0 => .nop
    | 1 => .checksum
    | 2 => .build
    | 3 => .send
    | 4 => .parse
    | 5 => .read (strict == 1#1)
    | 6 => .recv
    | _ => .reservedCmd op strict zero

/-- The wire (30_encoding.md R90 to R95): a lone start byte is STX_HUNT, and a whole frame is FRAME. The tests stand
in the frame's own order. -/
def decodeWire (bytes : List Byte) : Except DecodeError Instr :=
  match bytes with
  | [] => .error .emptyWireWord
  | [b] => if b = stx then .ok .stxHunt else .error .notAStartByte
  | _ :: _ :: _ =>
    if bytes.getD 0 0 ≠ stx then .error .notAStartByte
    else if bytes.length < 5 then .error .frameTooShort
    else if bytes.length ≠ lengthField (bytes.getD 1 0) (bytes.getD 2 0) + 4 then .error .lengthMismatch
    else if bytes.getD (bytes.length - 2) 0 ≠ etx then .error .notAnEndByte
    else if fold bytes 0 ≠ lrcSeed then .error .checksumMismatch
    else .ok (.frame (parseFrame bytes))

/-- The decoder: one command byte, or the bytes of one wire word. -/
def decode (port : Port) (bytes : List Byte) : Except DecodeError Instr :=
  match port, bytes with
  | .cmd, [w] => .ok (decodeCmd w)
  | .cmd, _ => .error .commandIsOneByte
  | .wire, bytes => decodeWire bytes

/-- The command byte with these fields (30_encoding.md R100). -/
def cmdByte (zero : BitVec 4) (strict : BitVec 1) (op : BitVec 3) : Byte := zero ++ strict ++ op

/-- The bytes of a well-formed instruction (30_encoding.md R101, R104; 41_frame_build_parse.md R140). -/
def encode : Instr → List Byte
  | .nop => [cmdByte 0 0 0]
  | .checksum => [cmdByte 0 0 1]
  | .build => [cmdByte 0 0 2]
  | .send => [cmdByte 0 0 3]
  | .parse => [cmdByte 0 0 4]
  | .read strict => [cmdByte 0 (BitVec.ofBool strict) 5]
  | .recv => [cmdByte 0 0 6]
  | .reservedCmd op strict zero => [cmdByte zero strict op]
  | .frame payload => buildFrame payload
  | .stxHunt => [stx]

/-- The `n` low bytes of `w`, the least significant first: an opcode-table word as bytes in stream order. -/
def tableBytes : (n : Nat) → (w : Nat) → List Byte
  | 0, _ => []
  | n + 1, w => BitVec.ofNat 8 w :: tableBytes n (w / 256)

/-- The instruction the decoder reads from a table word: at most 8 bits are a command word, more are a wire word (the
rows BUILD and STX_HUNT share the word 0x02, which is read as a command; log 9). -/
def decodeTableWord (nbits w : Nat) : Option Instr :=
  match (if nbits ≤ 8 then decode .cmd [BitVec.ofNat 8 w] else decode .wire (tableBytes (nbits / 8) w)) with
  | .ok i => some i
  | .error _ => none

end Sys2Proof
end

