-- ==== Sys2Proof/Machine/State.lean ====
section
/-! DEFINITION. The machine's state as plain data, its reset value, and the reasons a step can stop. -/

namespace Sys2Proof.Machine

/-- A byte buffer: the bytes written so far as (index, byte) pairs, indexes strictly rising. An index that is not
listed has no value: nothing has written it since reset (10_state.md R44, R50; log 5). -/
abbrev Memory := List Host.Cell

/-- `rx_state` (10_state.md R22). -/
inductive RxState
  | idle
  | hunt
  | hdr
  | body
deriving DecidableEq, Repr

/-- `rx_result` (10_state.md R30). -/
inductive RxResult
  | none
  | ok
  | timeout
  | start
  | length
  | data
deriving DecidableEq, Repr

/-- `tx_state` (10_state.md R33). -/
inductive TxState
  | idle
  | emit
deriving DecidableEq, Repr

/-- `tx_result` (10_state.md R36). -/
inductive TxResult
  | none
  | ok
  | txLen
deriving DecidableEq, Repr

/-- The RX unit's registers (10_state.md R22 to R32, R43). -/
structure RxUnit where
  /-- `rx_state`, R22 -/
  state : RxState
  /-- `rx_strict`, R23 -/
  strict : Bool
  /-- `rx_recv`, R23 -/
  recv : Bool
  /-- `rx_tidle`, the latched idle timeout, R23 -/
  tidle : Ticks
  /-- `rx_tframe`, the latched mid-frame timeout, R23 -/
  tframe : Ticks
  /-- `rx_tmr`, R24 -/
  tmr : Ticks
  /-- `rx_buf`, R25 -/
  buf : Memory
  /-- `rx_cnt`, R26 -/
  cnt : Count
  /-- `rx_need`, R27 -/
  need : Half
  /-- `rx_len`, R28 -/
  len : Half
  /-- `rx_lrc`, R29 -/
  lrc : Byte
  /-- `rx_result`, R30 -/
  result : RxResult
  /-- `rx_cmd_err`, R31 -/
  cmdErr : Bool
  /-- `rx_poff`, R32 -/
  poff : Count
  /-- `rx_plen`, R32 -/
  plen : Count
  /-- `rx_pvalid`, R32 -/
  pvalid : Bool
  /-- The host's operand register `RX_TIDLE`, R43 -/
  regTidle : Ticks
  /-- The host's configuration register `RX_TFRAME`, R43 -/
  regTframe : Ticks
deriving DecidableEq, Repr

/-- The TX unit's registers (10_state.md R33 to R36). -/
structure TxUnit where
  /-- `tx_state`, R33 -/
  state : TxState
  /-- `tx_pay`, R34 -/
  pay : Memory
  /-- `tx_plen`, R34 -/
  plen : Half
  /-- `tx_seed`, R34 -/
  seed : Byte
  /-- `tx_frm`, R35 -/
  frm : Memory
  /-- `tx_flen`, R35 -/
  flen : Count
  /-- `tx_idx`, R35 -/
  idx : Count
  /-- `tx_lrc`, R35 -/
  lrc : Byte
  /-- `tx_result`, R36 -/
  result : TxResult
  /-- `tx_cmd_err`, R36 -/
  cmdErr : Bool
deriving DecidableEq, Repr

/-- The whole machine: the two units, which share no state (10_state.md R20), the streams and the source's health,
and the model's own fields `agenda`, `hostData`, `epoch` and `draws`. -/
structure State where
  rx : RxUnit
  tx : TxUnit
  /-- The answers the byte source still has to give to `SrcRead()`, the next one first (20_memory.md R63, R64). -/
  incoming : List SrcAnswer
  /-- The bytes `SrcWrite` has appended, the first one first (20_memory.md R69). -/
  outgoing : List Byte
  /-- The byte source is open and works (60_exceptions.md R255, R261; log 7). -/
  sourceOpen : Bool
  /-- MODEL's own: whose steps come next, the next one first (00_scope.md R12; log 1). -/
  agenda : List Turn
  /-- MODEL's own: what the host's last register read returned (log 10). -/
  hostData : HostWord
  /-- MODEL's own: how many reset steps there were; indexes the buffers' free bytes (log 5). -/
  epoch : Nat
  /-- MODEL's own: how many free turns and free answers were drawn (log 1, log 2). -/
  draws : Nat
deriving DecidableEq, Repr

/-- Why the machine stops with a fault. -/
inductive Fault
  /-- An RX step would store, or a TX step would read, at an index outside its buffer. The spec says that no such
  index arises (10_state.md R37), so no reachable state raises it. Raised by `rxTurn` and `txTurn`. SAFE: the machine
  stops (log 14). -/
  | noSuchByte
deriving DecidableEq, Repr

/-- Why the model gives a step no meaning. -/
inductive Refusal
  /-- The instruction of this mnemonic has no meaning in the model yet. Raised by `exec` only. SAFE. -/
  | notModelled (mnemonic : String)
  /-- A host read of a buffer byte that the spec leaves unspecified: "a model should refuse such a read rather than
  pick a value" (10_state.md R44, D20). Raised by `hostRead`. SAFE (log 6). -/
  | unspecifiedByte
  /-- The byte source is closed, absent, fails or breaks its contract while the block uses it: "The spec gives such a
  run no meaning: a model should refuse it" (60_exceptions.md R255, U5). Raised by `execRead`, `execRecv` and `execSend`
  at issue, by `rxTurn`, `txTurn` and `sourceTurn`. SAFE (log 7). -/
  | sourceUnavailable
deriving DecidableEq, Repr

/-- The RX unit after reset (10_state.md R50). -/
def RxUnit.reset : RxUnit where
  state := .idle
  strict := false
  recv := false
  tidle := 0
  tframe := Config.tFrameDefault
  tmr := 0
  buf := []
  cnt := 0
  need := 0
  len := 0
  lrc := 0
  result := .none
  cmdErr := false
  poff := 0
  plen := 0
  pvalid := false
  regTidle := 0
  regTframe := Config.tFrameDefault

/-- The TX unit after reset (10_state.md R50). -/
def TxUnit.reset : TxUnit where
  state := .idle
  pay := []
  plen := 0
  seed := 0
  frm := []
  flen := 0
  idx := 0
  lrc := 0
  result := .none
  cmdErr := false

/-- The machine right after reset (10_state.md R50, 70_reset_and_hazards.md R280), with no event listed and the byte
source open, as the collaborator must have left it (R283; log 7). -/
def State.reset : State where
  rx := RxUnit.reset
  tx := TxUnit.reset
  incoming := []
  outgoing := []
  sourceOpen := true
  agenda := []
  hostData := 0
  epoch := 0
  draws := 0

end Sys2Proof.Machine
end

