-- ==== Sys2Proof/Machine/Ops.lean ====
section
/-! DEFINITION. The shared operations: byte buffers, the two stream primitives, the state's setters, and the block's
"trap entry" `raise` with the return from it, the acceptance of the next command. -/

namespace Sys2Proof.Machine

/-- What a step answers. -/
abbrev Result := Host.Outcome State Fault Refusal

/-! Byte buffers (20_memory.md R60, R61). -/

/-- The byte at an index, where one has been written: `MemRead(buf, i, 1)` (00_scope.md R11). -/
def Memory.read? : Memory → Nat → Option Byte
  | [], _ => none
  | (a, b) :: rest, i => if a = i then some b else Memory.read? rest i

/-- `MemWrite(buf, i, 1, v)` (00_scope.md R11), keeping the indexes strictly rising. -/
def Memory.write : Memory → Nat → Byte → Memory
  | [], i, v => [(i, v)]
  | (a, b) :: rest, i, v =>
    if i < a then (i, v) :: (a, b) :: rest
    else if i = a then (i, v) :: rest
    else (a, b) :: Memory.write rest i v

/-- `buf[base + i] <- bytes[i]` for every `i`, in order. -/
def Memory.writeList : Memory → Nat → List Byte → Memory
  | m, _, [] => m
  | m, base, b :: rest => Memory.writeList (Memory.write m base b) (base + 1) rest

/-- The indexes are strictly rising, from `lo` on. -/
def Memory.risingFrom : Nat → Memory → Bool
  | _, [] => true
  | lo, (a, _) :: rest => decide (lo ≤ a) && Memory.risingFrom (a + 1) rest

/-- The canonical form of a buffer of `size` bytes: indexes strictly rising and all inside it. No entry can equal what
an unlisted index reads as, since that has no value. -/
def Memory.wf (size : Nat) (m : Memory) : Bool :=
  Memory.risingFrom 0 m && m.all (fun cell => decide (cell.1 < size))

/-- The bytes at the indexes `0 .. n-1`, a free value standing wherever nothing has been written since reset
(log 5). -/
def Memory.bytes (m : Memory) (name : BufferName) (epoch n : Nat) : List Byte :=
  (List.range n).map (fun i => (Memory.read? m i).getD (Config.freeByte name epoch i))

/-! Setters: one field each. -/

def State.setRx (s : State) (u : RxUnit) : State := { s with rx := u }
def State.setTx (s : State) (u : TxUnit) : State := { s with tx := u }
def State.setIncoming (s : State) (l : List SrcAnswer) : State := { s with incoming := l }
def State.setOutgoing (s : State) (l : List Byte) : State := { s with outgoing := l }
def State.setSourceOpen (s : State) (b : Bool) : State := { s with sourceOpen := b }
def State.setAgenda (s : State) (l : List Turn) : State := { s with agenda := l }
def State.setHostData (s : State) (v : HostWord) : State := { s with hostData := v }
def State.setDraws (s : State) (n : Nat) : State := { s with draws := n }

/-! The byte source (20_memory.md R62 to R69). -/

/-- `SrcRead()` (20_memory.md R64, R66): the next answer, which leaves the source. Where the list holds none, the
environment's choice is a free value (log 2). -/
def srcRead (s : State) : SrcAnswer × State :=
  match s.incoming with
  | a :: rest => (a, s.setIncoming rest)
  | [] => (Config.freeAnswer s.draws, s.setDraws (s.draws + 1))

/-- `SrcWrite(b)` (20_memory.md R69): append one byte to the outgoing stream. -/
def srcWrite (b : Byte) (s : State) : State := s.setOutgoing (s.outgoing ++ [b])

/-! Errors: the block's "trap entry" (60_exceptions.md R246), one for each unit. The context bytes are already in
`rx_buf[0 .. rx_cnt-1]`; nothing else changes. -/

/-- `raise <Kind>(ctx)` on the RX unit (60_exceptions.md R246). -/
def raiseRx (kind : RxResult) (u : RxUnit) : RxUnit := { u with result := kind, state := .idle }

/-- `raise <Kind>(ctx)` on the TX unit (60_exceptions.md R246). -/
def raiseTx (kind : TxResult) (u : TxUnit) : TxUnit := { u with result := kind, state := .idle }

/-! The way back (60_exceptions.md R252): there is no return instruction; the next accepted command clears the unit's
command-error flag (R247 (5)) and its issue rule does the rest. -/

/-- A command addressed to the RX unit is rejected (10_state.md R31, 60_exceptions.md R247). -/
def RxUnit.reject (u : RxUnit) : RxUnit := { u with cmdErr := true }

/-- A command addressed to the RX unit is accepted (60_exceptions.md R247 (5)). -/
def RxUnit.accept (u : RxUnit) : RxUnit := { u with cmdErr := false }

/-- A command or an operand write addressed to the TX unit is rejected (10_state.md R34, R36, 60_exceptions.md
R247). -/
def TxUnit.reject (u : TxUnit) : TxUnit := { u with cmdErr := true }

/-- A command addressed to the TX unit is accepted (60_exceptions.md R247 (5)). -/
def TxUnit.accept (u : TxUnit) : TxUnit := { u with cmdErr := false }

/-- `rx_busy` (10_state.md R22). -/
def RxUnit.busy (u : RxUnit) : Bool := decide (u.state ≠ .idle)

/-- `tx_busy` (10_state.md R33). -/
def TxUnit.busy (u : TxUnit) : Bool := decide (u.state ≠ .idle)

/-- A command of the RX unit: rejected while the unit is busy (60_exceptions.md R247 (4)), else accepted and issued
(R247 (5)). -/
def rxCommand (issue : RxUnit → RxUnit) (s : State) : Result :=
  .next (s.setRx (if s.rx.busy then s.rx.reject else issue s.rx.accept))

/-- A command of the TX unit: rejected while the unit is busy (60_exceptions.md R247 (3)), else accepted and issued
(R247 (5)). -/
def txCommand (issue : TxUnit → TxUnit) (s : State) : Result :=
  .next (s.setTx (if s.tx.busy then s.tx.reject else issue s.tx.accept))

/-- A command that may begin an operation on the byte source (READ, RECV, SEND). The block assumes the source open from
the issue of such an operation to its end (60_exceptions.md R261, D16): where `begins` holds and the source is not open,
the spec gives the run no meaning and the model refuses it (R255, U5; log 7). -/
def onOpenSource (begins : Bool) (s : State) (r : Result) : Result :=
  if begins = true ∧ s.sourceOpen = false then .refused .sourceUnavailable else r

/-- An operation on the byte source is in flight: a READ, a RECV or a SEND (60_exceptions.md R261). -/
def State.sourceInUse (s : State) : Bool := s.rx.busy || s.tx.busy

end Sys2Proof.Machine
end

