-- ==== Sys2Proof/Machine/Operands.lean ====
section
/-! DEFINITION. The operands of the operations (30_encoding.md R103) and the names of the host's registers
(10_state.md R39). -/

namespace Sys2Proof.Machine

/-- `tx_pay[0 .. tx_plen-1]` (10_state.md R34); a byte nothing has written since reset is a free value (log 5). -/
def TxUnit.payload (u : TxUnit) (epoch : Nat) : List Byte := u.pay.bytes .txPay epoch u.plen.toNat

/-- `tx_frm[tx_idx]` (41_frame_build_parse.md R144). -/
def TxUnit.emitByte (u : TxUnit) (epoch : Nat) : Byte :=
  (u.frm.read? u.idx.toNat).getD (Config.freeByte .txFrm epoch u.idx.toNat)

/-- `rx_buf[i]` for the header (42_frame_reader.md R177). -/
def RxUnit.bufByte (u : RxUnit) (epoch i : Nat) : Byte :=
  (u.buf.read? i).getD (Config.freeByte .rxBuf epoch i)

/-- The registers outside the windows (10_state.md R39): the numbers 0x00000 to 0x0000F, of which 0x00007 is reserved
(R46). -/
def scalarReg (n : Nat) : Reg :=
  match n with
  | 0x00 => .cmd
  | 0x01 => .txStatus
  | 0x02 => .txPlen
  | 0x03 => .txSeed
  | 0x04 => .txLrc
  | 0x05 => .txFlen
  | 0x06 => .txIdx
  | 0x08 => .rxStatus
  | 0x09 => .rxTidle
  | 0x0A => .rxTframe
  | 0x0B => .rxCnt
  | 0x0C => .rxLen
  | 0x0D => .rxPoff
  | 0x0E => .rxPlen
  | 0x0F => .rxLrc
  | _ => .reserved

/-- Where the window of `TX_PAY` begins (10_state.md R39). -/
def txPayBase : Nat := 0x10000

/-- Where the window of `TX_FRM` begins (10_state.md R39). -/
def txFrmBase : Nat := 0x20000

/-- Where the window of `RX_BUF` begins (10_state.md R39). -/
def rxBufBase : Nat := 0x40000

/-- The register a register number names (10_state.md R39); every number of no register is reserved (R46). -/
def regOf (r : RegNo) : Reg :=
  if r.toNat < txPayBase then scalarReg r.toNat
  else if r.toNat < txPayBase + Config.txPaySize then .txPay (r.toNat - txPayBase)
  else if txFrmBase ≤ r.toNat ∧ r.toNat < txFrmBase + Config.txFrmSize then .txFrm (r.toNat - txFrmBase)
  else if rxBufBase ≤ r.toNat ∧ r.toNat < rxBufBase + Config.rxBufSize then .rxBuf (r.toNat - rxBufBase)
  else .reserved

end Sys2Proof.Machine
end

