-- ==== Sys2Proof/Machine/Flags.lean ====
section
/-! DEFINITION. The codes of the status fields, the two status words, and the command-error flags a reserved command
sets. -/

namespace Sys2Proof.Machine

/-- 30_encoding.md R110. -/
def RxState.code : RxState → BitVec 2
  | .idle => 0
  | .hunt => 1
  | .hdr => 2
  | .body => 3

/-- 30_encoding.md R110. -/
def RxResult.code : RxResult → BitVec 3
  | .none => 0
  | .ok => 1
  | .timeout => 2
  | .start => 3
  | .length => 4
  | .data => 5

/-- 30_encoding.md R110. -/
def TxResult.code : TxResult → BitVec 2
  | .none => 0
  | .ok => 1
  | .txLen => 2

/-- `TX_STATUS` (10_state.md R41): bits [7:4] zero, bit 3 `tx_cmd_err`, bits [2:1] `tx_result`, bit 0 `tx_busy`. -/
def TxUnit.status (u : TxUnit) : Byte :=
  0#4 ++ BitVec.ofBool u.cmdErr ++ u.result.code ++ BitVec.ofBool u.busy

/-- `RX_STATUS` (10_state.md R42): bit 7 `rx_pvalid`, bits [6:5] `rx_state`, bit 4 `rx_cmd_err`, bits [3:1]
`rx_result`, bit 0 `rx_busy`. -/
def RxUnit.status (u : RxUnit) : Byte :=
  BitVec.ofBool u.pvalid ++ u.state.code ++ BitVec.ofBool u.cmdErr ++ u.result.code ++ BitVec.ofBool u.busy

/-- A reserved command sets `tx_cmd_err` for `OP` 1 to 3 and where `OP` names no unit (30_encoding.md R104). -/
def reservedFlagsTx (op : BitVec 3) : Bool :=
  op == 1#3 || op == 2#3 || op == 3#3 || op == 0#3 || op == 7#3

/-- A reserved command sets `rx_cmd_err` for `OP` 4 to 6 and where `OP` names no unit (30_encoding.md R104). -/
def reservedFlagsRx (op : BitVec 3) : Bool :=
  op == 4#3 || op == 5#3 || op == 6#3 || op == 0#3 || op == 7#3

/-- What a reserved command changes: the command-error flags, and nothing else (30_encoding.md R104,
60_exceptions.md R247 (2)). -/
def flagReserved (op : BitVec 3) (s : State) : State :=
  (s.setRx (if reservedFlagsRx op then s.rx.reject else s.rx)).setTx
    (if reservedFlagsTx op then s.tx.reject else s.tx)

end Sys2Proof.Machine
end

