-- ==== Sys2Proof/Machine/Control.lean ====
section
/-! DEFINITION. The commands that belong to no unit: NOP and the reserved command values. -/

namespace Sys2Proof.Machine

/-- NOP "changes no state, sets no flag and is accepted whether or not either unit is busy" (30_encoding.md R104). -/
def execNop (s : State) : Result := .next s

/-- A reserved command value starts nothing and sets the command-error flag of the unit `OP` names, both flags where it
names none; busy or not, for the reserved encoding is tested first (30_encoding.md R104, 60_exceptions.md R247 (2),
R251). -/
def execReservedCmd (op : BitVec 3) (_strict : BitVec 1) (_zero : BitVec 4) (s : State) : Result :=
  .next (flagReserved op s)

end Sys2Proof.Machine
end

