-- ==== Sys2Proof/Machine/Receive.lean ====
section
/-! DEFINITION. The RX unit: PARSE, READ, RECV and the RX step, one function for each rule of 42_frame_reader.md. -/

namespace Sys2Proof.Machine

/-- The payload view of the accumulated buffer (41_frame_build_parse.md R147, 10_state.md R32). -/
def payloadView (u : RxUnit) : RxUnit :=
  { u with
    poff := 3
    plen := if 5 ≤ u.cnt.toNat then u.cnt - 5 else 0
    pvalid := true }

/-- The issue rule of READ (42_frame_reader.md R171), with `rx_recv` = 1 for RECV (R186). -/
def readIssue (recv strict : Bool) (u : RxUnit) : RxUnit :=
  { u with
    recv := recv
    strict := strict
    tidle := u.regTidle
    tframe := u.regTframe
    cnt := 0
    lrc := 0
    result := .none
    pvalid := false
    tmr := u.regTidle
    state := .hunt }

/-- PARSE (41_frame_build_parse.md R147). -/
def execParse (s : State) : Result := rxCommand payloadView s

/-- READ (42_frame_reader.md R171), on a source open at issue (60_exceptions.md R261); what follows is `rxTurn`. -/
def execRead (strict : Bool) (s : State) : Result :=
  onOpenSource (!s.rx.busy) s (rxCommand (readIssue false strict) s)

/-- RECV (42_frame_reader.md R186): a READ with `strict_start` false that ends in PARSE. -/
def execRecv (s : State) : Result := onOpenSource (!s.rx.busy) s (rxCommand (readIssue true false) s)

/-! The RX step (42_frame_reader.md section 3). -/

/-- HUNT, the start byte (42_frame_reader.md R172). -/
def huntStart (u : RxUnit) : RxUnit :=
  { u with buf := u.buf.write 0 stx, cnt := 1, lrc := stx, need := 3, tmr := u.tframe, state := .hdr }

/-- HUNT, another byte in strict mode (42_frame_reader.md R173). -/
def huntStrict (b : Byte) (u : RxUnit) : RxUnit :=
  raiseRx .start { u with buf := u.buf.write 0 b, cnt := 1, lrc := b }

/-- HUNT, another byte otherwise: noise (42_frame_reader.md R174). -/
def huntNoise (u : RxUnit) : RxUnit := { u with tmr := u.tidle }

/-- One byte of the header or the body is accumulated (42_frame_reader.md R176, R179). -/
def storeByte (b : Byte) (u : RxUnit) : RxUnit :=
  { u with
    buf := u.buf.write u.cnt.toNat b
    cnt := u.cnt + 1
    lrc := u.lrc ^^^ b
    need := u.need - 1 }

/-- `validate()` (42_frame_reader.md R181). -/
def validate (u : RxUnit) : RxUnit :=
  if u.lrc = lrcSeed then
    { (if u.recv then payloadView u else u) with result := .ok, state := .idle }
  else raiseRx .data u

/-- The length `n` the header declares (42_frame_reader.md R177, 30_encoding.md R97). -/
def declaredLength (epoch : Nat) (u : RxUnit) : Nat := lengthField (u.bufByte epoch 1) (u.bufByte epoch 2)

/-- `header_complete()` (42_frame_reader.md R177). -/
def headerComplete (epoch : Nat) (u : RxUnit) : RxUnit :=
  let n := declaredLength epoch u
  if n = 0 then validate { u with len := 0 }
  else { u with len := BitVec.ofNat 16 n, need := BitVec.ofNat 16 n, tmr := u.tframe, state := .body }

/-- The answer `byte(b)` in each state (42_frame_reader.md R172 to R174, R176, R179). -/
def rxOnByte (epoch : Nat) (b : Byte) (u : RxUnit) : RxUnit :=
  match u.state with
  | .idle => u
  | .hunt => if b = stx then huntStart u else if u.strict then huntStrict b u else huntNoise u
  | .hdr => if (storeByte b u).need = 0 then headerComplete epoch (storeByte b u) else storeByte b u
  | .body => if (storeByte b u).need = 0 then validate (storeByte b u) else storeByte b u

/-- A tick that expires the phase raises `kind`; any other counts the timer down (42_frame_reader.md R175, R178,
R180). -/
def countTick (kind : RxResult) (u : RxUnit) : RxUnit :=
  if u.tmr = 0 then raiseRx kind u else { u with tmr := u.tmr - 1 }

/-- The answer `none` in each state (42_frame_reader.md R175, R178, R180). -/
def rxOnTick (u : RxUnit) : RxUnit :=
  match u.state with
  | .idle => u
  | .hunt => countTick .timeout u
  | .hdr => countTick .length u
  | .body => countTick .length u

/-- The RX unit takes one answer. A byte of the header or body that no index of `rx_buf` is left for is the fault
`noSuchByte`, which no reachable state raises (10_state.md R37; log 14). -/
def rxApply (a : SrcAnswer) (s : State) : Result :=
  match a with
  | .tick => .next (s.setRx (rxOnTick s.rx))
  | .byte b =>
    if s.rx.state ≠ .hunt ∧ Config.rxBufSize ≤ s.rx.cnt.toNat then .fault .noSuchByte
    else .next (s.setRx (rxOnByte s.epoch b s.rx))

/-- The RX unit's turn: an idle unit does nothing (42_frame_reader.md R187); a busy one makes one `SrcRead()` call and
applies the one rule that matches (R184). A call on a source that is not there is refused (60_exceptions.md R255;
log 7). -/
def rxTurn (s : State) : Result :=
  if s.rx.state = .idle then .next s
  else if s.sourceOpen = false then .refused .sourceUnavailable
  else rxApply (srcRead s).1 (srcRead s).2

/-- `n` turns of the RX unit in a row, up to the first that stops. -/
def rxTurns : Nat → State → Result
  | 0, s => .next s
  | n + 1, s =>
    match rxTurn s with
    | .next t => rxTurns n t
    | .fault r => .fault r
    | .refused r => .refused r

end Sys2Proof.Machine
end

