-- ==== Sys2Proof/Machine/Transmit.lean ====
section
/-! DEFINITION. The TX unit: CHECKSUM, BUILD, SEND and the TX step that emits one byte. -/

namespace Sys2Proof.Machine

/-- The issue rule of CHECKSUM (40_checksum.md R121). -/
def checksumIssue (epoch : Nat) (u : TxUnit) : TxUnit :=
  { u with lrc := fold (u.payload epoch) u.seed, result := .ok }

/-- The assignments BUILD and SEND share (41_frame_build_parse.md R141, R143): the frame, its length, its checksum byte
and `tx_idx`. -/
def loadFrame (epoch : Nat) (u : TxUnit) : TxUnit :=
  { u with
    frm := u.frm.writeList 0 (buildFrame (u.payload epoch))
    flen := u.plen.setWidth 17 + 5
    lrc := frameChecksum (u.payload epoch)
    idx := 0 }

/-- The length precondition of BUILD and SEND (41_frame_build_parse.md R142). -/
def tooLong (u : TxUnit) : Bool := decide (maxPayload < u.plen.toNat)

/-- The issue rule of BUILD (41_frame_build_parse.md R141, R142). -/
def buildIssue (epoch : Nat) (u : TxUnit) : TxUnit :=
  if tooLong u then raiseTx .txLen u else { loadFrame epoch u with result := .ok }

/-- The issue rule of SEND (41_frame_build_parse.md R143, R142). -/
def sendIssue (epoch : Nat) (u : TxUnit) : TxUnit :=
  if tooLong u then raiseTx .txLen u else { loadFrame epoch u with result := .none, state := .emit }

/-- CHECKSUM (40_checksum.md R121). -/
def execChecksum (s : State) : Result := txCommand (checksumIssue s.epoch) s

/-- BUILD (41_frame_build_parse.md R141). -/
def execBuild (s : State) : Result := txCommand (buildIssue s.epoch) s

/-- SEND (41_frame_build_parse.md R143), on a source open at issue (60_exceptions.md R261); the emission is `txTurn`. A
SEND that ends `TX_LEN` at issue (R142, R245) emits nothing and needs no source. -/
def execSend (s : State) : Result :=
  onOpenSource (!s.tx.busy && !tooLong s.tx) s (txCommand (sendIssue s.epoch) s)

/-- The TX unit's registers after one byte of a SEND has been emitted (41_frame_build_parse.md R144). -/
def txAdvance (u : TxUnit) : TxUnit :=
  if u.idx + 1 = u.flen then { u with idx := u.idx + 1, state := .idle, result := .ok }
  else { u with idx := u.idx + 1 }

/-- The TX unit's turn (41_frame_build_parse.md R144): with a SEND in flight and the sink ready, the TX step; else
nothing changes. A step that would write to a source that is not there is refused (60_exceptions.md R255; log 7). -/
def txTurn (sinkReady : Bool) (s : State) : Result :=
  if s.tx.state = .idle ∨ sinkReady = false then .next s
  else if s.sourceOpen = false then .refused .sourceUnavailable
  else if Config.txFrmSize ≤ s.tx.idx.toNat then .fault .noSuchByte
  else .next ((srcWrite (s.tx.emitByte s.epoch) s).setTx (txAdvance s.tx))

end Sys2Proof.Machine
end

