-- ==== Sys2Proof/Machine/Wire.lean ====
section
/-! DEFINITION. The two rows of the wire: FRAME and STX_HUNT, as what the RX unit does when these bytes are the
source's next answers (log 8, log 9). -/

namespace Sys2Proof.Machine

/-- The environment lets these bytes be the next answers of the byte source, in order and with no tick between
(20_memory.md R64, R77). -/
def present (bytes : List Byte) (s : State) : State := s.setIncoming (bytes.map SrcAnswer.byte ++ s.incoming)

/-- Bytes are presented and the RX unit has one turn for each. A unit that is idle, or becomes idle on the way, leaves
the bytes it has not taken with the source (20_memory.md R63, 42_frame_reader.md R187). -/
def wireBurst (bytes : List Byte) (s : State) : Result := rxTurns bytes.length (present bytes s)

/-- FRAME: the whole frame that carries `payload` (30_encoding.md R90) passes before the reader. -/
def execFrame (payload : List Byte) (s : State) : Result := wireBurst (buildFrame payload) s

/-- STX_HUNT: the one byte 0x02 passes before the reader, which starts a frame in HUNT (42_frame_reader.md R172) and is
ordinary data inside one (R189). -/
def execStxHunt (s : State) : Result := wireBurst [stx] s

end Sys2Proof.Machine
end

