-- ==== Sys2Proof/Machine/Dispatch.lean ====
section
/-! DEFINITION. The dispatch: one arm per constructor of `Instr`. -/

namespace Sys2Proof.Machine

def exec (i : Instr) (s : State) : Host.Outcome State Fault Refusal :=
  match i with
  | .nop => Sys2Proof.Machine.execNop s
  | .checksum => Sys2Proof.Machine.execChecksum s
  | .build => Sys2Proof.Machine.execBuild s
  | .send => Sys2Proof.Machine.execSend s
  | .parse => Sys2Proof.Machine.execParse s
  | .read strict => Sys2Proof.Machine.execRead strict s
  | .recv => Sys2Proof.Machine.execRecv s
  | .reservedCmd op strict zero => Sys2Proof.Machine.execReservedCmd op strict zero s
  | .frame payload => Sys2Proof.Machine.execFrame payload s
  | .stxHunt => Sys2Proof.Machine.execStxHunt s

end Sys2Proof.Machine
end

