-- ==== Sys2Proof/Machine/HostPort.lean ====
section
/-! DEFINITION. The host's register space: reads, and every write but the one to `CMD`, which issues a command. -/

namespace Sys2Proof.Machine

/-- What a register reads as (10_state.md R39 to R46); `none` for a byte that R44 calls unspecified. -/
def readReg (r : Reg) (s : State) : Option HostWord :=
  match r with
  | .cmd => some 0
  | .txStatus => some (s.tx.status.setWidth 32)
  | .txPlen => some (s.tx.plen.setWidth 32)
  | .txSeed => some (s.tx.seed.setWidth 32)
  | .txLrc => some (s.tx.lrc.setWidth 32)
  | .txFlen => some (s.tx.flen.setWidth 32)
  | .txIdx => some (s.tx.idx.setWidth 32)
  | .rxStatus => some (s.rx.status.setWidth 32)
  | .rxTidle => some s.rx.regTidle
  | .rxTframe => some s.rx.regTframe
  | .rxCnt => some (s.rx.cnt.setWidth 32)
  | .rxLen => some (s.rx.len.setWidth 32)
  | .rxPoff => some (s.rx.poff.setWidth 32)
  | .rxPlen => some (s.rx.plen.setWidth 32)
  | .rxLrc => some (s.rx.lrc.setWidth 32)
  | .txPay i => (s.tx.pay.read? i).map (BitVec.setWidth 32)
  | .txFrm i => if i < s.tx.flen.toNat then (s.tx.frm.read? i).map (BitVec.setWidth 32) else none
  | .rxBuf i => if i < s.rx.cnt.toNat then (s.rx.buf.read? i).map (BitVec.setWidth 32) else none
  | .reserved => some 0

/-- A host read (20_memory.md R74: no side effect in the block); the value goes to the model's `hostData` (log 10). A
byte that R44 calls unspecified is refused, as R44 asks (log 6). -/
def hostRead (r : Reg) (s : State) : Result :=
  match readReg r s with
  | some v => .next (s.setHostData v)
  | none => .refused .unspecifiedByte

/-- A host write of a TX operand: ignored and flagged while the TX unit is busy (10_state.md R34, D32). -/
def writeTxOperand (write : TxUnit → TxUnit) (s : State) : State :=
  s.setTx (if s.tx.busy then s.tx.reject else write s.tx)

/-- A host write to a register other than `CMD` (10_state.md R34, R43, R44, R46): the value's low bits, as many as the
register is wide (log 11). Writes to read-only and to reserved registers are ignored. -/
def writeReg (r : Reg) (v : HostWord) (s : State) : State :=
  match r with
  | .txPlen => writeTxOperand (fun u => { u with plen := v.setWidth 16 }) s
  | .txSeed => writeTxOperand (fun u => { u with seed := v.setWidth 8 }) s
  | .txPay i => writeTxOperand (fun u => { u with pay := u.pay.write i (v.setWidth 8) }) s
  | .rxTidle => s.setRx { s.rx with regTidle := v }
  | .rxTframe => s.setRx { s.rx with regTframe := v }
  | .cmd => s
  | .txStatus => s
  | .txLrc => s
  | .txFlen => s
  | .txIdx => s
  | .rxStatus => s
  | .rxCnt => s
  | .rxLen => s
  | .rxPoff => s
  | .rxPlen => s
  | .rxLrc => s
  | .txFrm _ => s
  | .rxBuf _ => s
  | .reserved => s

end Sys2Proof.Machine
end

