-- ==== Sys2Proof/Machine/Agents.lean ====
section
/-! DEFINITION. The turns of the agents (00_scope.md R12): host, RX unit, TX unit, reset and the environment, and whose
turn comes next. -/

namespace Sys2Proof.Machine

/-- A write of the byte `w` to `CMD`: the command is decoded and executed (10_state.md R40, 60_exceptions.md R247). -/
def issueCommand (w : Byte) (s : State) : Result :=
  match decode .cmd [w] with
  | .ok i => exec i s
  | .error _ => .next s

/-- Bytes pass on the wire: a word of the wire's encoding is executed, any others are a burst that is no instruction
(log 8). -/
def runWire (bytes : List Byte) (s : State) : Result :=
  match decode .wire bytes with
  | .ok i => exec i s
  | .error _ => wireBurst bytes s

/-- One host step (10_state.md R39 to R46). -/
def hostTurn (access : HostAccess) (s : State) : Result :=
  match access with
  | .read r => hostRead (regOf r) s
  | .write r v => if regOf r = .cmd then issueCommand (v.setWidth 8) s else .next (writeReg (regOf r) v s)

/-- The collaborator opens or loses the byte source. A READ, RECV or SEND in flight has no meaning on a source that is
lost meanwhile, or that was not open all the time and is opened now: both are refused (60_exceptions.md R255, R261, U5;
log 7). -/
def sourceTurn (event : SourceEvent) (s : State) : Result :=
  match event with
  | .opened =>
    if s.sourceInUse = true ∧ s.sourceOpen = false then .refused .sourceUnavailable
    else .next (s.setSourceOpen true)
  | .lost => if s.sourceInUse then .refused .sourceUnavailable else .next (s.setSourceOpen false)

/-- The reset step (70_reset_and_hazards.md R280, R281, 10_state.md R50): every register of both units at its reset
value, the buffers unspecified (a new epoch, log 5), the streams and the source untouched. -/
def resetTurn (s : State) : State :=
  { s with rx := State.reset.rx, tx := State.reset.tx, epoch := s.epoch + 1 }

/-- One atomic step of the agent whose turn it is (00_scope.md R12). -/
def perform (turn : Turn) (s : State) : Result :=
  match turn with
  | .host access => hostTurn access s
  | .rx => rxTurn s
  | .tx sinkReady => txTurn sinkReady s
  | .wire bytes => runWire bytes s
  | .source event => sourceTurn event s
  | .reset => .next (resetTurn s)

/-- Whose turn comes next: the head of the agenda, and a free value where it is empty (00_scope.md R12; log 1). -/
def takeTurn (s : State) : Turn × State :=
  match s.agenda with
  | t :: rest => (t, s.setAgenda rest)
  | [] => (Config.freeTurn s.draws, s.setDraws (s.draws + 1))

/-- The turn that lets the next step run a table word of `nbits` bits: a write to `CMD` for a command word, bytes on
the wire for a longer one (log 12). -/
def wordTurn (nbits w : Nat) : Turn :=
  if nbits ≤ 8 then .host (.write 0 (BitVec.ofNat 32 (w % 256))) else .wire (tableBytes (nbits / 8) w)

end Sys2Proof.Machine
end

