-- ==== Sys2Proof/Machine/Step.lean ====
section
/-! DEFINITION. The step function, and how the host places one instruction. -/

namespace Sys2Proof.Machine

/-- One step of the machine: the agent whose turn it is takes one atomic step (00_scope.md R12). -/
def step (s : State) : Host.Outcome State Fault Refusal := perform (takeTurn s).1 (takeTurn s).2

/-- `s` with one turn put before all others: the one that issues this table word (log 12). -/
def State.withFetchWord (s : State) (nbits w : Nat) : State := s.setAgenda (wordTurn nbits w :: s.agenda)

end Sys2Proof.Machine
end

