-- ==== Sys2Proof/Safety.lean ====
section
/-! DEFINITION. The terms the claims are stated in: what a buffer holds, the invariants of reachable states, and the
document's READ as a function of the source's answers. The machine uses none of them. -/

namespace Sys2Proof.Machine

/-- The bytes at the indexes `0 .. n-1`, if each of them has been written. -/
def Memory.firstBytes? (m : Memory) : Nat → Option (List Byte)
  | 0 => some []
  | n + 1 =>
    match Memory.firstBytes? m n, m.read? n with
    | some bytes, some b => some (bytes ++ [b])
    | _, _ => none

/-- `rx_buf[0 .. rx_cnt-1]` (10_state.md R25). -/
def RxUnit.accumulated (u : RxUnit) : Option (List Byte) := u.buf.firstBytes? u.cnt.toNat

/-- `tx_frm[0 .. tx_flen-1]` (10_state.md R35). -/
def TxUnit.built (u : TxUnit) : Option (List Byte) := u.frm.firstBytes? u.flen.toNat

/-- The six clauses of 10_state.md R49. -/
structure RuleR49 (s : State) : Prop where
  hunt : s.rx.state = .hunt → s.rx.cnt = 0
  hdr : s.rx.state = .hdr →
    1 ≤ s.rx.cnt.toNat ∧ s.rx.cnt.toNat ≤ 3 ∧ s.rx.need.toNat = 4 - s.rx.cnt.toNat ∧ s.rx.buf.read? 0 = some stx
  body : s.rx.state = .body →
    1 ≤ s.rx.len.toNat ∧ 4 ≤ s.rx.cnt.toNat ∧ s.rx.cnt.toNat ≤ s.rx.len.toNat + 3 ∧
      s.rx.need.toNat = s.rx.len.toNat + 4 - s.rx.cnt.toNat ∧ s.rx.buf.read? 0 = some stx ∧
      ∃ hi lo, s.rx.buf.read? 1 = some hi ∧ s.rx.buf.read? 2 = some lo ∧ s.rx.len.toNat = hi.toNat * 256 + lo.toNat
  busy : s.rx.state ≠ .idle →
    s.rx.result = .none ∧ ∃ bytes, s.rx.accumulated = some bytes ∧ s.rx.lrc = fold bytes 0x00
  ok : s.rx.result = .ok →
    s.rx.cnt.toNat = s.rx.len.toNat + 4 ∧ s.rx.buf.read? 0 = some 0x02 ∧
      ∃ bytes, s.rx.accumulated = some bytes ∧ fold bytes 0x00 = 0x02
  emit : s.tx.state = .emit →
    s.tx.idx.toNat < s.tx.flen.toNat ∧ s.tx.flen.toNat = s.tx.plen.toNat + 5 ∧ s.tx.result = .none

/-- The buffers' canonical form, and every byte a count covers has been written (10_state.md R25, R34, R35). -/
structure BuffersOk (s : State) : Prop where
  rxBuf : s.rx.buf.wf Config.rxBufSize = true
  txPay : s.tx.pay.wf Config.txPaySize = true
  txFrm : s.tx.frm.wf Config.txFrmSize = true
  accumulated : s.rx.accumulated ≠ none
  built : s.tx.built ≠ none

/-- The ranges of the counters and the timer (10_state.md R24, R26, R35, R37), the payload view (R32), and the operand
of RECV (42_frame_reader.md R186). -/
structure RangesOk (s : State) : Prop where
  cnt : s.rx.cnt.toNat ≤ 65539
  flen : s.tx.flen.toNat ≤ 65539
  idx : s.tx.idx.toNat ≤ s.tx.flen.toNat
  huntTimer : s.rx.state = .hunt → s.rx.tmr.toNat ≤ s.rx.tidle.toNat
  frameTimer : s.rx.state = .hdr ∨ s.rx.state = .body → s.rx.tmr.toNat ≤ s.rx.tframe.toNat
  view : s.rx.pvalid = true → s.rx.state = .idle ∧ s.rx.poff = 3 ∧ s.rx.plen.toNat = s.rx.cnt.toNat - 5
  recv : s.rx.recv = true → s.rx.strict = false

/-- What each end of a READ leaves as its context (60_exceptions.md R240 to R244, R248); `OK` and `DATA` leave the whole
frame that the header declares (42_frame_reader.md R177, R181). -/
structure ContextOk (s : State) : Prop where
  timeout : s.rx.result = .timeout → s.rx.cnt = 0
  start : s.rx.result = .start → s.rx.cnt = 1 ∧ s.rx.buf.read? 0 ≠ some stx ∧ s.rx.recv = false ∧ s.rx.strict = true
  length : s.rx.result = .length →
    1 ≤ s.rx.cnt.toNat ∧ s.rx.cnt.toNat ≤ 65538 ∧ s.rx.buf.read? 0 = some stx
  data : s.rx.result = .data →
    s.rx.cnt.toNat = s.rx.len.toNat + 4 ∧ s.rx.buf.read? 0 = some stx ∧
      ∃ bytes, s.rx.accumulated = some bytes ∧ s.rx.lrc = fold bytes 0 ∧ s.rx.lrc ≠ lrcSeed
  declared : s.rx.result = .ok ∨ s.rx.result = .data →
    ∃ hi lo, s.rx.buf.read? 1 = some hi ∧ s.rx.buf.read? 2 = some lo ∧ s.rx.len.toNat = lengthField hi lo

/-- The byte source is open from the issue of any READ, RECV or SEND to its end (60_exceptions.md R261). -/
def SourceOk (s : State) : Prop := s.rx.state ≠ .idle ∨ s.tx.state ≠ .idle → s.sourceOpen = true

/-- The invariant of reachable states. -/
structure State.Inv (s : State) : Prop where
  r49 : RuleR49 s
  buffers : BuffersOk s
  ranges : RangesOk s
  context : ContextOk s
  source : SourceOk s

/-! The document's READ as a function of the answers (42_frame_reader.md R188, 20_memory.md R67). -/

/-- `readExactly(k, T)` on a list of answers (20_memory.md R67): the bytes got, fewer than `k` if the timeout expired,
and the answers left; `none` if the answers end before the call does. -/
def readExactly : (k t : Nat) → List SrcAnswer → Option (List Byte × List SrcAnswer)
  | 0, _, as => some ([], as)
  | _ + 1, _, [] => none
  | k + 1, t, .byte b :: as => (readExactly k t as).map (fun got => (b :: got.1, got.2))
  | _ + 1, 0, .tick :: as => some ([], as)
  | k + 1, t + 1, .tick :: as => readExactly (k + 1) t as

/-- How a READ ends: its result, its frame or context bytes, and the answers it has not consumed. -/
structure ReadEnd where
  result : RxResult
  bytes : List Byte
  rest : List SrcAnswer
deriving DecidableEq, Repr

/-- The part of `read` after the start byte (42_frame_reader.md R188). -/
def readFrameRest (tf : Nat) (as : List SrcAnswer) : Option ReadEnd :=
  match readExactly 3 tf as with
  | none => none
  | some (h, as1) =>
    if h.length < 3 then some ⟨.length, stx :: h, as1⟩
    else
      let n := lengthField (h.getD 0 0) (h.getD 1 0)
      match readExactly n tf as1 with
      | none => none
      | some (d, as2) =>
        if d.length < n then some ⟨.length, stx :: (h ++ d), as2⟩
        else if fold (stx :: (h ++ d)) 0 = lrcSeed then some ⟨.ok, stx :: (h ++ d), as2⟩
        else some ⟨.data, stx :: (h ++ d), as2⟩

/-- The loop of `read` (42_frame_reader.md R188), at most `fuel` times round. -/
def readLoop (t : Nat) (strict : Bool) (tf : Nat) : (fuel : Nat) → List SrcAnswer → Option ReadEnd
  | 0, _ => none
  | fuel + 1, as =>
    match readExactly 1 t as with
    | none => none
    | some ([], as1) => some ⟨.timeout, [], as1⟩
    | some (b :: _, as1) =>
      if b = stx then readFrameRest tf as1
      else if strict then some ⟨.start, [b], as1⟩
      else readLoop t strict tf fuel as1

/-- `read(t, strict, tf)` on a list of answers (42_frame_reader.md R188); `none` while the READ has not ended. Each
round of its loop consumes an answer, so the list's length bounds them. -/
def readFunction (t : Nat) (strict : Bool) (tf : Nat) (as : List SrcAnswer) : Option ReadEnd :=
  readLoop t strict tf (as.length + 1) as

/-! Event traces (30_encoding.md R109). -/

/-- The bytes among the answers. -/
def bytesOf : List SrcAnswer → List Byte
  | [] => []
  | .byte b :: as => b :: bytesOf as
  | .tick :: as => bytesOf as

/-- The number of ticks among the answers. -/
def ticksOf : List SrcAnswer → Nat
  | [] => 0
  | .byte _ :: as => ticksOf as
  | .tick :: as => ticksOf as + 1

/-- The answers deliver exactly these bytes, with at most `limit` ticks among them and no tick after the last byte: one
`readExactly(len(bytes), limit)` call that gets them all (20_memory.md R67). -/
def Delivers (answers : List SrcAnswer) (bytes : List Byte) (limit : Nat) : Prop :=
  bytesOf answers = bytes ∧ ticksOf answers ≤ limit ∧ (answers = [] ∨ ∃ b, answers.getLast? = some (.byte b))

/-- The answers deliver a frame: its start byte, then its header bytes and its body bytes, each phase with at most
`limit` ticks (42_frame_reader.md R191). -/
def DeliversFrame (answers : List SrcAnswer) (frame : List Byte) (limit : Nat) : Prop :=
  ∃ header body, answers = .byte stx :: (header ++ body) ∧ Delivers header ((frame.drop 1).take 3) limit ∧
    Delivers body (frame.drop 4) limit

/-- Noise before a frame (42_frame_reader.md R191): no byte is 0x02, and no more than `t` ticks come in a row, `run` of
them being left from before. -/
def noiseWithin (t : Nat) : (run : Nat) → List SrcAnswer → Bool
  | _, [] => true
  | _, .byte b :: as => b != stx && noiseWithin t 0 as
  | run, .tick :: as => decide (run + 1 ≤ t) && noiseWithin t (run + 1) as

end Sys2Proof.Machine
end

