-- ==== Sys2Proof/Certificates/Slice0/Obligations.lean ====
section
/-! DEFINITION. The statements about the model, one definition each; OBLIGATIONS.json lists them with the rules of
spec/ they formalise. -/

open Sys2Proof Sys2Proof.Machine

/-! Encoding. -/

/-- Decoding an encoded well-formed instruction gives it back, in its own encoding space. -/
def Obligations.DecodeInvertsEncode : Prop :=
  ∀ i : Instr, i.wf = true → decode i.port (encode i) = .ok i

/-- Whatever bytes decode are the encoding of the well-formed instruction they decode to. -/
def Obligations.EncodeInvertsDecode : Prop :=
  ∀ (p : Port) (bytes : List Byte) (i : Instr),
    decode p bytes = .ok i → i.port = p ∧ i.wf = true ∧ encode i = bytes

/-- R101 with the fields of R100: the eight valid values of `CMD` and their operations; every other value is reserved
and keeps its fields. -/
def Obligations.CommandWordsDecodeByTable : Prop :=
  decodeCmd 0x00 = .nop ∧ decodeCmd 0x01 = .checksum ∧ decodeCmd 0x02 = .build ∧ decodeCmd 0x03 = .send ∧
  decodeCmd 0x04 = .parse ∧ decodeCmd 0x05 = .read false ∧ decodeCmd 0x06 = .recv ∧ decodeCmd 0x0D = .read true ∧
  ∀ w : Byte, w ∉ ([0x00, 0x01, 0x02, 0x03, 0x04, 0x05, 0x06, 0x0D] : List Byte) →
    decodeCmd w = .reservedCmd (w.extractLsb' 0 3) (w.extractLsb' 3 1) (w.extractLsb' 4 4)

/-- Words and frames written out from the spec's encodings (95_test_vectors.md B1, B3, B6). -/
def Obligations.WireWordsDecodeByTable : Prop :=
  decode .wire [0x02] = .ok .stxHunt ∧
  decode .wire [0x02, 0x00, 0x01, 0x03, 0x02] = .ok (.frame []) ∧
  decode .wire [0x02, 0x00, 0x04, 0x41, 0x42, 0x43, 0x03, 0x47] = .ok (.frame [0x41, 0x42, 0x43]) ∧
  decode .wire [0x02, 0x00, 0x03, 0x02, 0x03, 0x03, 0x01] = .ok (.frame [0x02, 0x03]) ∧
  decode .wire [0x02, 0x00, 0x04, 0x41, 0x42, 0x43, 0x03, 0x46] = .error .checksumMismatch ∧
  decode .wire [0x02, 0x00, 0x04, 0x41, 0x42, 0x43, 0x04, 0x40] = .error .notAnEndByte

/-! Steps. -/

/-- A step performs the next turn of the agenda, and a free one where the agenda is empty (log 1). -/
def Obligations.StepPerformsTheNextTurn : Prop :=
  ∀ s : State,
    (∀ t rest, s.agenda = t :: rest → step s = perform t (s.setAgenda rest)) ∧
    (s.agenda = [] → step s = perform (Config.freeTurn s.draws) (s.setDraws (s.draws + 1)))

/-- A step runs the decoded instruction: the command word of a host write to `CMD` (register number 0), or the bytes
on the wire; around `exec` it only takes the turn off the agenda. That a write carries 32 bits of which `CMD` takes the
low 8 is the model's choice (log 11), and so are the turns (log 1) and the wire's bytes as one turn (log 8). -/
def Obligations.StepRunsTheDecodedInstruction : Prop :=
  ∀ (s : State) (rest : List Turn) (i : Instr),
    (∀ v : HostWord, s.agenda = .host (.write 0 v) :: rest → decode .cmd [v.setWidth 8] = .ok i →
      step s = exec i (s.setAgenda rest)) ∧
    (∀ bytes : List Byte, s.agenda = .wire bytes :: rest → decode .wire bytes = .ok i →
      step s = exec i (s.setAgenda rest))

/-! Commands. -/

/-- R104: NOP changes nothing, busy or not; every value but the eight of R101 is reserved, starts nothing and sets the
command-error flag of the unit `OP` names, both flags for `OP` 0 and 7. -/
def Obligations.NopAndReservedCommands : Prop :=
  ∀ (w : Byte) (s : State),
    (w = 0x00 → issueCommand w s = .next s ∧ exec .nop s = .next s) ∧
    (w ∉ ([0x00, 0x01, 0x02, 0x03, 0x04, 0x05, 0x06, 0x0D] : List Byte) →
      let op := w.extractLsb' 0 3
      let t : State :=
        { s with
          tx := { s.tx with cmdErr := if op = 4 ∨ op = 5 ∨ op = 6 then s.tx.cmdErr else true }
          rx := { s.rx with cmdErr := if op = 1 ∨ op = 2 ∨ op = 3 then s.rx.cmdErr else true } }
      issueCommand w s = .next t ∧
      exec (.reservedCmd op (w.extractLsb' 3 1) (w.extractLsb' 4 4)) s = .next t)

/-- R247: the five tests of a write to `CMD`, in their order, and the host's writes to TX operands while `tx_busy`. READ,
RECV and a SEND that is not too long are accepted on a source that is open at issue, as R261 assumes; what happens on
another is said in `SourceFailureIsRefused`. -/
def Obligations.CommandAcceptance : Prop :=
  ∀ (w : Byte) (s : State),
    (w = 0x00 → issueCommand w s = .next s) ∧
    (w ∉ ([0x00, 0x01, 0x02, 0x03, 0x04, 0x05, 0x06, 0x0D] : List Byte) →
      issueCommand w s = .next (flagReserved (w.extractLsb' 0 3) s)) ∧
    (w ∈ ([0x01, 0x02, 0x03] : List Byte) → s.tx.state ≠ .idle →
      issueCommand w s = .next { s with tx := { s.tx with cmdErr := true } }) ∧
    (w ∈ ([0x04, 0x05, 0x06, 0x0D] : List Byte) → s.rx.state ≠ .idle →
      issueCommand w s = .next { s with rx := { s.rx with cmdErr := true } }) ∧
    (s.tx.state = .idle →
      let u : TxUnit := { s.tx with cmdErr := false }
      (w = 0x01 → issueCommand w s = .next (s.setTx (checksumIssue s.epoch u))) ∧
      (w = 0x02 → issueCommand w s = .next (s.setTx (buildIssue s.epoch u))) ∧
      (w = 0x03 → s.sourceOpen = true ∨ s.tx.plen.toNat > 65534 →
        issueCommand w s = .next (s.setTx (sendIssue s.epoch u)))) ∧
    (s.rx.state = .idle →
      let u : RxUnit := { s.rx with cmdErr := false }
      (w = 0x04 → issueCommand w s = .next (s.setRx (payloadView u))) ∧
      (s.sourceOpen = true →
        (w = 0x05 → issueCommand w s = .next (s.setRx (readIssue false false u))) ∧
        (w = 0x0D → issueCommand w s = .next (s.setRx (readIssue false true u))) ∧
        (w = 0x06 → issueCommand w s = .next (s.setRx (readIssue true false u))))) ∧
    (s.tx.state ≠ .idle → ∀ (r : RegNo) (v : HostWord),
      (r.toNat = 0x00002 ∨ r.toNat = 0x00003 ∨ (0x10000 ≤ r.toNat ∧ r.toNat ≤ 0x10000 + 65534)) →
      hostTurn (.write r v) s = .next { s with tx := { s.tx with cmdErr := true } })

/-- R121: CHECKSUM, its encoding, its acceptance, its result and everything it leaves unchanged; on written bytes the
payload is those bytes, on others it holds free values (log 5). -/
def Obligations.ChecksumResult : Prop :=
  ∀ s : State,
    issueCommand 0x01 s = exec .checksum s ∧
    (s.tx.state ≠ .idle → exec .checksum s = .next { s with tx := { s.tx with cmdErr := true } }) ∧
    (s.tx.state = .idle →
      exec .checksum s = .next { s with tx := { s.tx with
        lrc := fold (s.tx.payload s.epoch) s.tx.seed, result := .ok, cmdErr := false } } ∧
      (s.tx.payload s.epoch).length = s.tx.plen.toNat ∧
      (∀ i b, i < s.tx.plen.toNat → s.tx.pay.read? i = some b → (s.tx.payload s.epoch)[i]? = some b))

/-- BUILD (R141): its encoding, its acceptance, its length test, the frame byte by byte, and everything it leaves
unchanged. That BUILD completes over bytes of `tx_pay` that nothing has written since reset, with free values for them, is
the model's choice (log 5; U9 would also allow a refusal). -/
def Obligations.BuildResult : Prop :=
  ∀ s : State,
    issueCommand 0x02 s = exec .build s ∧
    (s.tx.state ≠ .idle → exec .build s = .next { s with tx := { s.tx with cmdErr := true } }) ∧
    (s.tx.state = .idle → s.tx.plen.toNat > 65534 →
      exec .build s = .next { s with tx := { s.tx with result := .txLen, cmdErr := false } }) ∧
    (s.tx.state = .idle → s.tx.plen.toNat ≤ 65534 →
      let P := s.tx.payload s.epoch
      ∃ t : State, exec .build s = .next t ∧
        t = { s with tx := { s.tx with
          frm := t.tx.frm, flen := BitVec.ofNat 17 (s.tx.plen.toNat + 5), lrc := t.tx.lrc, idx := 0, result := .ok,
          cmdErr := false } } ∧
        t.tx.flen.toNat = s.tx.plen.toNat + 5 ∧
        (∀ i, i < s.tx.plen.toNat + 5 → t.tx.frm.read? i = (buildFrame P)[i]?) ∧
        (∀ i, s.tx.plen.toNat + 5 ≤ i → t.tx.frm.read? i = s.tx.frm.read? i) ∧
        (buildFrame P)[s.tx.plen.toNat + 4]? = some t.tx.lrc)

/-- R142 and R245: `tx_plen` = 65535 makes BUILD and SEND end with `TX_LEN`, and nothing else changes; CHECKSUM never
raises it. -/
def Obligations.OverlongPayloadIsRefused : Prop :=
  ∀ s : State, s.tx.state = .idle →
    (s.tx.plen.toNat > 65534 →
      exec .build s = .next { s with tx := { s.tx with result := .txLen, cmdErr := false } } ∧
      exec .send s = .next { s with tx := { s.tx with result := .txLen, cmdErr := false } }) ∧
    (∃ t, exec .checksum s = .next t ∧ t.tx.result = .ok)

/-- The issue step of SEND (R143), as BUILD's but for `tx_result` and `tx_state`, with everything it leaves unchanged, on
a source that is open at issue; on another it is refused (R255, R261; log 7). That SEND completes over bytes of `tx_pay`
that nothing has written since reset, with free values for them, is the model's choice (log 5; U9 would also allow a
refusal). -/
def Obligations.SendIssueResult : Prop :=
  ∀ s : State,
    issueCommand 0x03 s = exec .send s ∧
    (s.tx.state ≠ .idle → exec .send s = .next { s with tx := { s.tx with cmdErr := true } }) ∧
    (s.tx.state = .idle → s.tx.plen.toNat > 65534 →
      exec .send s = .next { s with tx := { s.tx with result := .txLen, cmdErr := false } }) ∧
    (s.tx.state = .idle → s.tx.plen.toNat ≤ 65534 → s.sourceOpen = false →
      exec .send s = .refused .sourceUnavailable) ∧
    (s.tx.state = .idle → s.tx.plen.toNat ≤ 65534 → s.sourceOpen = true →
      let P := s.tx.payload s.epoch
      ∃ t : State, exec .send s = .next t ∧
        t = { s with tx := { s.tx with
          frm := t.tx.frm, flen := BitVec.ofNat 17 (s.tx.plen.toNat + 5), lrc := t.tx.lrc, idx := 0, result := .none,
          state := .emit, cmdErr := false } } ∧
        (∀ i, i < s.tx.plen.toNat + 5 → t.tx.frm.read? i = (buildFrame P)[i]?) ∧
        (∀ i, s.tx.plen.toNat + 5 ≤ i → t.tx.frm.read? i = s.tx.frm.read? i) ∧
        (buildFrame P)[s.tx.plen.toNat + 4]? = some t.tx.lrc)

/-- R144: the TX step emits `tx_frm[tx_idx]`, and nothing changes while the sink is not ready or the unit is idle. -/
def Obligations.TxStepResult : Prop :=
  ∀ s : State,
    (∀ ready, s.tx.state = .idle ∨ ready = false → perform (.tx ready) s = .next s) ∧
    (∀ b, s.tx.state = .emit → s.sourceOpen = true → s.tx.idx.toNat < 65539 →
      s.tx.frm.read? s.tx.idx.toNat = some b →
      perform (.tx true) s = .next { s with
        outgoing := s.outgoing ++ [b]
        tx := { s.tx with
          idx := s.tx.idx + 1
          state := if s.tx.idx + 1 = s.tx.flen then .idle else .emit
          result := if s.tx.idx + 1 = s.tx.flen then .ok else s.tx.result } })

/-- R145: after SEND and as many TX steps with the sink ready as the frame has bytes, however many turns with the sink
not ready lie between, the outgoing stream is extended by exactly `build(P)` of the payload at issue. It is about runs in
which no other agent has a turn before the SEND ends. That the low 8 bits of a 32-bit write are the command (log 11) and
that bytes of `tx_pay` nothing has written are free values (log 5) are the model's choices. -/
def Obligations.SendEmitsTheBuiltFrame : Prop :=
  ∀ (s : State) (ready : List Bool) (rest : List Turn) (v : HostWord),
    s.tx.state = .idle → s.sourceOpen = true → s.tx.plen.toNat ≤ 65534 → v.setWidth 8 = (0x03 : Byte) →
    ready.count true = s.tx.plen.toNat + 5 →
    s.agenda = .host (.write 0 v) :: (ready.map Turn.tx ++ rest) →
    ∃ t : State, Host.Core.run core (ready.length + 1) s = .next t ∧
      t.outgoing = s.outgoing ++ buildFrame (s.tx.payload s.epoch) ∧
      t.tx.idx = t.tx.flen ∧ t.tx.flen.toNat = s.tx.plen.toNat + 5 ∧ t.tx.state = .idle ∧ t.tx.result = .ok ∧
      t.tx.pay = s.tx.pay ∧ t.tx.plen = s.tx.plen ∧ t.tx.seed = s.tx.seed ∧
      t.rx = s.rx ∧ t.incoming = s.incoming ∧ t.agenda = rest

/-- R147: PARSE, its encoding, its acceptance, and its effect whatever `rx_result` is; the view it leaves is `parse` of
the accumulated bytes. -/
def Obligations.ParseResult : Prop :=
  ∀ s : State,
    issueCommand 0x04 s = exec .parse s ∧
    (s.rx.state ≠ .idle → exec .parse s = .next { s with rx := { s.rx with cmdErr := true } }) ∧
    (s.rx.state = .idle →
      let plen : Count := if 5 ≤ s.rx.cnt.toNat then s.rx.cnt - 5 else 0
      exec .parse s = .next { s with rx := { s.rx with poff := 3, plen := plen, pvalid := true, cmdErr := false } } ∧
      (∀ F, s.rx.accumulated = some F →
        (parseFrame F).length = plen.toNat ∧
        ∀ i, i < plen.toNat → s.rx.buf.read? (3 + i) = (parseFrame F)[i]?))

/-- READ (R171): its encodings, its acceptance, and its issue step in full, on a source that is open at issue; no
`SrcRead()` call is made. That the issue is refused on a source that is not open is the model's choice (log 7, from R255
and R261), not R171's. -/
def Obligations.ReadIssueResult : Prop :=
  ∀ (s : State) (strict : Bool),
    issueCommand (if strict then 0x0D else 0x05) s = exec (.read strict) s ∧
    (s.rx.state ≠ .idle → exec (.read strict) s = .next { s with rx := { s.rx with cmdErr := true } }) ∧
    (s.rx.state = .idle → s.sourceOpen = false → exec (.read strict) s = .refused .sourceUnavailable) ∧
    (s.rx.state = .idle → s.sourceOpen = true →
      exec (.read strict) s = .next { s with rx := { s.rx with
        cmdErr := false, recv := false, strict := strict, tidle := s.rx.regTidle, tframe := s.rx.regTframe, cnt := 0,
        lrc := 0x00, result := .none, pvalid := false, tmr := s.rx.regTidle, state := .hunt } })

/-- The issue step of RECV (R186, first half): as READ's with `rx_recv` = 1 and `rx_strict` = 0, on a source that is
open at issue; on another it is refused (R255, R261; log 7). -/
def Obligations.RecvIssueResult : Prop :=
  ∀ s : State, s.rx.state = .idle →
    (s.sourceOpen = false → exec .recv s = .refused .sourceUnavailable) ∧
    (s.sourceOpen = true →
      exec .recv s = .next { s with rx := { s.rx with
        cmdErr := false, recv := true, strict := false, tidle := s.rx.regTidle, tframe := s.rx.regTframe, cnt := 0,
        lrc := 0x00, result := .none, pvalid := false, tmr := s.rx.regTidle, state := .hunt } })

/-- R186: RECV runs as a non-strict READ, from the issue step (`n` = 0) on; when that ends `OK` RECV also leaves what
PARSE would leave, and when it ends in an error the same error, `rx_pvalid` = 0; the error is never `START`. The source
is open at issue (R261; `RecvIssueResult` says what happens where it is not). -/
def Obligations.RecvIsReadThenParse : Prop :=
  ∀ (s : State) (n : Nat),
    issueCommand 0x06 s = exec .recv s ∧
    (s.rx.state ≠ .idle → exec .recv s = .next { s with rx := { s.rx with cmdErr := true } }) ∧
    (s.rx.state = .idle → s.sourceOpen = true →
      ∃ s1 s2 : State, exec (.read false) s = .next s1 ∧ exec .recv s = .next s2 ∧
        ∀ t1 : State, rxTurns n s1 = .next t1 →
          ∃ t2 : State, rxTurns n s2 = .next t2 ∧ t2.rx.result ≠ .start ∧
            (t1.rx.result = .ok →
              ∃ t3 : State, exec .parse t1 = .next t3 ∧ t2 = t3.setRx { t3.rx with recv := true }) ∧
            (t1.rx.result ≠ .ok → t2 = t1.setRx { t1.rx with recv := true } ∧ t2.rx.pvalid = false))

/-! The RX step. -/

/-- R172 to R175: every answer in HUNT, with everything it leaves unchanged. -/
def Obligations.HuntStep : Prop :=
  ∀ (s : State) (a : SrcAnswer) (rest : List SrcAnswer),
    s.rx.state = .hunt → s.sourceOpen = true → s.incoming = a :: rest →
    let s' : State := { s with incoming := rest }
    (a = .byte 0x02 → perform .rx s = .next (s'.setRx { s.rx with
      buf := s.rx.buf.write 0 0x02, cnt := 1, lrc := 0x02, need := 3, tmr := s.rx.tframe, state := .hdr })) ∧
    (∀ b, a = .byte b → b ≠ 0x02 → s.rx.strict = true → perform .rx s = .next (s'.setRx { s.rx with
      buf := s.rx.buf.write 0 b, cnt := 1, lrc := b, result := .start, state := .idle })) ∧
    (∀ b, a = .byte b → b ≠ 0x02 → s.rx.strict = false → perform .rx s = .next (s'.setRx { s.rx with
      tmr := s.rx.tidle })) ∧
    (a = .tick → s.rx.tmr = 0 → perform .rx s = .next (s'.setRx { s.rx with result := .timeout, state := .idle })) ∧
    (a = .tick → s.rx.tmr ≠ 0 → perform .rx s = .next (s'.setRx { s.rx with tmr := s.rx.tmr - 1 }))

/-- R176 to R178 and R181: every answer in HDR. `hi` and `lo` are `rx_buf[1]` and `rx_buf[2]` after the arriving byte
is stored; with the third byte the length is decoded, and a length of 0 goes straight to validation (R183). -/
def Obligations.HeaderStep : Prop :=
  ∀ (s : State) (a : SrcAnswer) (rest : List SrcAnswer),
    s.rx.state = .hdr → s.sourceOpen = true → s.incoming = a :: rest →
    let s' : State := { s with incoming := rest }
    (∀ b, a = .byte b → s.rx.cnt.toNat < 65539 →
      let u : RxUnit := { s.rx with
        buf := s.rx.buf.write s.rx.cnt.toNat b, cnt := s.rx.cnt + 1, lrc := s.rx.lrc ^^^ b, need := s.rx.need - 1 }
      (u.need ≠ 0 → perform .rx s = .next (s'.setRx u)) ∧
      (∀ hi lo n, u.need = 0 → u.buf.read? 1 = some hi → u.buf.read? 2 = some lo → n = hi.toNat * 256 + lo.toNat →
        (n ≠ 0 → perform .rx s = .next (s'.setRx { u with
          len := BitVec.ofNat 16 n, need := BitVec.ofNat 16 n, tmr := s.rx.tframe, state := .body })) ∧
        (n = 0 → u.lrc ≠ 0x02 →
          perform .rx s = .next (s'.setRx { u with len := 0, result := .data, state := .idle })) ∧
        (n = 0 → u.lrc = 0x02 → s.rx.recv = false →
          perform .rx s = .next (s'.setRx { u with len := 0, result := .ok, state := .idle })) ∧
        (n = 0 → u.lrc = 0x02 → s.rx.recv = true →
          perform .rx s = .next (s'.setRx { u with
            len := 0, result := .ok, state := .idle, poff := 3,
            plen := if 5 ≤ u.cnt.toNat then u.cnt - 5 else 0, pvalid := true })))) ∧
    (a = .tick → s.rx.tmr = 0 → perform .rx s = .next (s'.setRx { s.rx with result := .length, state := .idle })) ∧
    (a = .tick → s.rx.tmr ≠ 0 → perform .rx s = .next (s'.setRx { s.rx with tmr := s.rx.tmr - 1 }))

/-- R179 to R181: every answer in BODY. -/
def Obligations.BodyStep : Prop :=
  ∀ (s : State) (a : SrcAnswer) (rest : List SrcAnswer),
    s.rx.state = .body → s.sourceOpen = true → s.incoming = a :: rest →
    let s' : State := { s with incoming := rest }
    (∀ b, a = .byte b → s.rx.cnt.toNat < 65539 →
      let u : RxUnit := { s.rx with
        buf := s.rx.buf.write s.rx.cnt.toNat b, cnt := s.rx.cnt + 1, lrc := s.rx.lrc ^^^ b, need := s.rx.need - 1 }
      (u.need ≠ 0 → perform .rx s = .next (s'.setRx u)) ∧
      (u.need = 0 → u.lrc ≠ 0x02 →
        perform .rx s = .next (s'.setRx { u with result := .data, state := .idle })) ∧
      (u.need = 0 → u.lrc = 0x02 → s.rx.recv = false →
        perform .rx s = .next (s'.setRx { u with result := .ok, state := .idle })) ∧
      (u.need = 0 → u.lrc = 0x02 → s.rx.recv = true →
        perform .rx s = .next (s'.setRx { u with
          result := .ok, state := .idle, poff := 3,
          plen := if 5 ≤ u.cnt.toNat then u.cnt - 5 else 0, pvalid := true }))) ∧
    (a = .tick → s.rx.tmr = 0 → perform .rx s = .next (s'.setRx { s.rx with result := .length, state := .idle })) ∧
    (a = .tick → s.rx.tmr ≠ 0 → perform .rx s = .next (s'.setRx { s.rx with tmr := s.rx.tmr - 1 }))

/-- R187: an idle RX unit does nothing; its turn changes nothing at all. -/
def Obligations.IdleRxUnitDoesNothing : Prop :=
  ∀ s : State, s.rx.state = .idle → perform .rx s = .next s

/-- R251: one result per READ, and which error can come from which phase; every RX step that leaves the unit busy
leaves the result `NONE`. -/
def Obligations.OneResultPerRead : Prop :=
  ∀ s t : State, s.Inv → s.rx.state ≠ .idle → perform .rx s = .next t →
    (t.rx.state = .idle ↔ t.rx.result ≠ .none) ∧
    (t.rx.result = .timeout ∨ t.rx.result = .start → s.rx.state = .hunt) ∧
    (t.rx.result = .length ∨ t.rx.result = .data ∨ t.rx.result = .ok → s.rx.state = .hdr ∨ s.rx.state = .body) ∧
    (t.rx.result = .data ∨ t.rx.result = .ok → t.rx.cnt.toNat = t.rx.len.toNat + 4 ∧ s.rx.need = 1) ∧
    (t.rx.result = .timeout ∨ t.rx.result = .length → s.rx.tmr = 0 ∧ t.rx.cnt = s.rx.cnt) ∧
    (t.rx.state = .hunt → s.rx.state = .hunt)

/-- Bytes a READ has stored never change while it runs (R44, R25). -/
def Obligations.StoredBytesStay : Prop :=
  ∀ s t : State, s.Inv → s.rx.state ≠ .idle → perform .rx s = .next t →
    s.rx.cnt.toNat ≤ t.rx.cnt.toNat ∧ ∀ i, i < s.rx.cnt.toNat → t.rx.buf.read? i = s.rx.buf.read? i

/-- R188: READ as the state machine and READ as the document's function give the same result, the same frame or context
bytes and consume the same answers; where the answers end before the READ does, the unit is still busy. -/
def Obligations.ReadMatchesItsFunction : Prop :=
  ∀ (s : State) (strict : Bool), s.rx.state = .idle → s.sourceOpen = true →
    ∃ s1 : State, exec (.read strict) s = .next s1 ∧
      (∀ e, readFunction s.rx.regTidle.toNat strict s.rx.regTframe.toNat s.incoming = some e →
        ∃ (k : Nat) (t : State), rxTurns k s1 = .next t ∧ t.rx.state = .idle ∧ t.rx.result = e.result ∧
          t.rx.accumulated = some e.bytes ∧ t.incoming = e.rest ∧
          ∀ j, j < k → ∃ m : State, rxTurns j s1 = .next m ∧ m.rx.state ≠ .idle) ∧
      (readFunction s.rx.regTidle.toNat strict s.rx.regTframe.toNat s.incoming = none →
        ∃ t : State, rxTurns s.incoming.length s1 = .next t ∧ t.rx.state ≠ .idle ∧ t.incoming = [])

/-- R191: a non-strict READ on noise and then an accepted frame returns the frame: leading noise without 0x02 and
without more than `t` ticks in a row, no more than `tf` ticks inside the header bytes and inside the body bytes. -/
def Obligations.ResynchronisesOnNoise : Prop :=
  ∀ (s : State) (B : List Byte) (noise answers rest : List SrcAnswer),
    s.rx.state = .idle → s.sourceOpen = true → AcceptedFrame B →
    noiseWithin s.rx.regTidle.toNat 0 noise = true → DeliversFrame answers B s.rx.regTframe.toNat →
    s.incoming = noise ++ (answers ++ rest) →
    ∃ s1 t : State, exec (.read false) s = .next s1 ∧ rxTurns (noise.length + answers.length) s1 = .next t ∧
      t.rx.state = .idle ∧ t.rx.result = .ok ∧ t.rx.accumulated = some B ∧ t.incoming = rest

/-- Noise holds a non-strict READ in HUNT (R286, R174): after any noise with no more than `t` ticks in a row the unit
is in HUNT, with no result and nothing stored. -/
def Obligations.NoiseHoldsTheReader : Prop :=
  ∀ (s : State) (noise rest : List SrcAnswer),
    s.rx.state = .hunt → s.rx.strict = false → s.sourceOpen = true → s.rx.tmr = s.rx.tidle →
    noiseWithin s.rx.tidle.toNat 0 noise = true → s.incoming = noise ++ rest →
    ∃ t : State, rxTurns noise.length s = .next t ∧ t.incoming = rest ∧
      t = { s with incoming := rest, rx := { s.rx with tmr := t.rx.tmr } }

/-- `TIMEOUT` comes on the `(t+1)`-th tick in a row after issue, and not before (R241, R175). -/
def Obligations.TimeoutAfterQuietLine : Prop :=
  ∀ (s : State) (strict : Bool) (rest : List SrcAnswer), s.rx.state = .idle → s.sourceOpen = true →
    s.incoming = List.replicate (s.rx.regTidle.toNat + 1) SrcAnswer.tick ++ rest →
    ∃ s1 t : State, exec (.read strict) s = .next s1 ∧ rxTurns (s.rx.regTidle.toNat + 1) s1 = .next t ∧
      t.rx.state = .idle ∧ t.rx.result = .timeout ∧ t.rx.cnt = 0 ∧ t.rx.buf = s.rx.buf ∧ t.incoming = rest ∧
      ∀ j, j ≤ s.rx.regTidle.toNat → ∃ m : State, rxTurns j s1 = .next m ∧ m.rx.state = .hunt ∧ m.rx.result = .none

/-- R192: when the first answer is 0x02 the strict and the non-strict READ do not differ, however long they run. -/
def Obligations.StrictStartOnCleanBoundary : Prop :=
  ∀ (s : State) (n : Nat) (rest : List SrcAnswer), s.rx.state = .idle → s.sourceOpen = true →
    s.incoming = .byte 0x02 :: rest →
    ∃ s1 s2 : State, exec (.read true) s = .next s1 ∧ exec (.read false) s = .next s2 ∧
      ∀ t1 : State, rxTurns (n + 1) s1 = .next t1 →
        rxTurns (n + 1) s2 = .next (t1.setRx { t1.rx with strict := false })

/-- A READ that has left HUNT ends (R184, R193): within 65538 byte answers and `2 * (rx_tframe + 1)` ticks, whatever
the source answers. -/
def Obligations.FrameInProgressEnds : Prop :=
  ∀ s : State, s.Inv → s.rx.state = .hdr ∨ s.rx.state = .body →
    ∃ (k : Nat) (t : State), k ≤ 65538 + 2 * (s.rx.tframe.toNat + 1) ∧ rxTurns k s = .next t ∧
      t.rx.state = .idle ∧ t.rx.result ≠ .none

/-- R106: the byte sequences a READ returns `OK` are exactly the accepted ones, strict or not. Only these: however the
source answers, with ticks wherever it likes, a READ that has ended `OK` leaves an accepted sequence in `rx_buf`, and the
bytes it took are that sequence, after noise that a strict READ does not have. All of these: answers that deliver such a
sequence within the timeouts make the READ return it. Every output of BUILD is among them and they are strictly more. -/
def Obligations.AcceptedSetIsExact : Prop :=
  (∀ (s s1 t : State) (strict : Bool) (n : Nat), s.Inv → s.rx.state = .idle →
    exec (.read strict) s = .next s1 → rxTurns n s1 = .next t → t.rx.result = .ok →
    ∃ B : List Byte, t.rx.accumulated = some B ∧ AcceptedFrame B ∧
      (n ≤ s.incoming.length → ∃ (taken : List SrcAnswer) (noise : List Byte),
        s.incoming = taken ++ t.incoming ∧ bytesOf taken = noise ++ B ∧ stx ∉ noise ∧ (strict = true → noise = []))) ∧
  (∀ (s : State) (strict : Bool) (B : List Byte) (answers rest : List SrcAnswer),
    s.rx.state = .idle → s.sourceOpen = true → AcceptedFrame B → DeliversFrame answers B s.rx.regTframe.toNat →
    s.incoming = answers ++ rest →
    ∃ s1 t : State, exec (.read strict) s = .next s1 ∧ rxTurns answers.length s1 = .next t ∧
      t.rx.state = .idle ∧ t.rx.result = .ok ∧ t.rx.accumulated = some B ∧ t.incoming = rest) ∧
  (∀ P : List Byte, P.length ≤ 65534 → AcceptedFrame (buildFrame P)) ∧
  (∃ B : List Byte, AcceptedFrame B ∧ ∀ P : List Byte, P.length ≤ 65534 → B ≠ buildFrame P)

/-! The wire. -/

/-- FRAME before a reader in HUNT: the READ ends `OK` with the whole frame, a RECV with its payload view too (R150,
R98, R181); nothing else changes. -/
def Obligations.FrameIsReceived : Prop :=
  ∀ (s : State) (P : List Byte), s.Inv → s.rx.state = .hunt → P.length ≤ 65534 →
    ∃ t : State, exec (.frame P) s = .next t ∧
      t.rx.state = .idle ∧ t.rx.result = .ok ∧ t.rx.accumulated = some (buildFrame P) ∧
      t.rx.cnt.toNat = P.length + 5 ∧ t.rx.len.toNat = P.length + 1 ∧ t.rx.lrc = 0x02 ∧
      t.rx.pvalid = s.rx.recv ∧
      (s.rx.recv = true → t.rx.poff = 3 ∧ t.rx.plen.toNat = P.length) ∧
      (∀ i, P.length + 5 ≤ i → t.rx.buf.read? i = s.rx.buf.read? i) ∧
      t.rx.cmdErr = s.rx.cmdErr ∧ t.rx.regTidle = s.rx.regTidle ∧ t.rx.regTframe = s.rx.regTframe ∧
      t.incoming = s.incoming ∧ t = s.setRx t.rx

/-- FRAME before an idle reader stays with the source, byte for byte (R63, R187); in every state of the invariant it
completes. -/
def Obligations.FrameAlwaysPasses : Prop :=
  ∀ (s : State) (P : List Byte),
    (s.rx.state = .idle →
      exec (.frame P) s = .next { s with incoming := (buildFrame P).map SrcAnswer.byte ++ s.incoming }) ∧
    (s.Inv → ∃ t : State, exec (.frame P) s = .next t ∧ t.tx = s.tx ∧ t.outgoing = s.outgoing)

/-- STX_HUNT: in HUNT the start byte starts a frame (R172); inside a frame it is data like any other byte (R189); before
an idle reader it stays with the source (R187). -/
def Obligations.StartByteByState : Prop :=
  ∀ s : State,
    (s.rx.state = .hunt → s.sourceOpen = true →
      exec .stxHunt s = .next { s with rx := { s.rx with
        buf := s.rx.buf.write 0 0x02, cnt := 1, lrc := 0x02, need := 3, tmr := s.rx.tframe, state := .hdr } }) ∧
    (s.rx.state = .idle → exec .stxHunt s = .next { s with incoming := SrcAnswer.byte 0x02 :: s.incoming }) ∧
    (s.rx.state = .hdr ∨ s.rx.state = .body → s.sourceOpen = true → s.rx.cnt.toNat < 65539 →
      ∃ t : State, exec .stxHunt s = .next t ∧ t.incoming = s.incoming ∧ t.rx.cnt = s.rx.cnt + 1 ∧
        t.rx.buf = s.rx.buf.write s.rx.cnt.toNat 0x02 ∧ t.rx.lrc = s.rx.lrc ^^^ 0x02 ∧ t.rx.state ≠ .hunt ∧
        t = s.setRx t.rx)

/-- A burst on the wire, FRAME among them, is exactly that many RX steps of the machine on these answers (log 8); so a
reader in HUNT ends `OK` with exactly the burst's bytes just if they are an accepted sequence (R106). -/
def Obligations.WireBurstIsRxSteps : Prop :=
  (∀ (s : State) (bytes : List Byte) (agenda : List Turn),
    let s' := present bytes s
    Host.Core.run core bytes.length (s'.setAgenda (List.replicate bytes.length Turn.rx ++ agenda)) =
      match wireBurst bytes s with
      | .next t => .next (t.setAgenda agenda)
      | .fault r => .fault r
      | .refused r => .refused r) ∧
  (∀ (s : State) (B : List Byte), s.Inv → s.rx.state = .hunt →
    ((∃ t : State, wireBurst B s = .next t ∧ t.rx.result = .ok ∧ t.rx.accumulated = some B) ↔ AcceptedFrame B))

/-! A corrupted frame. -/

/-- R125, first sentence: a frame with exactly one byte changed, neither the start byte nor a length byte, ends a READ
or RECV with `DATA`, the full buffer being its context, wherever ticks stand within the timeouts. -/
def Obligations.SingleByteCorruptionIsDetected : Prop :=
  ∀ (s : State) (P : List Byte) (k : Nat) (v : Byte) (answers rest : List SrcAnswer),
    s.Inv → s.rx.state = .hunt → P.length ≤ 65534 → 3 ≤ k → k < P.length + 5 → (buildFrame P)[k]? ≠ some v →
    DeliversFrame answers ((buildFrame P).set k v) s.rx.tframe.toNat → s.incoming = answers ++ rest →
    ∃ t : State, rxTurns answers.length s = .next t ∧
      t.rx.state = .idle ∧ t.rx.result = .data ∧ t.rx.accumulated = some ((buildFrame P).set k v) ∧
      t.incoming = rest ∧ t.tx = s.tx

/-! The pure functions. -/

/-- R122 (a) to (f): the laws of the fold. -/
def Obligations.FoldLaws : Prop :=
  (∀ s : Byte, fold [] s = s) ∧
  (∀ (B1 B2 : List Byte) (s : Byte), fold (B1 ++ B2) s = fold B2 (fold B1 s)) ∧
  (∀ (B : List Byte) (s : Byte), fold B s = s ^^^ fold B 0x00) ∧
  (∀ (B B' : List Byte) (s : Byte), B.Perm B' → fold B s = fold B' s) ∧
  (∀ (B : List Byte) (c s : Byte), fold (B ++ [c]) s = fold B s ^^^ c) ∧
  (∀ (B : List Byte) (i : Nat) (v v' s : Byte), B[i]? = some v →
    fold (B.set i v') s = fold B s ^^^ (v ^^^ v') ∧ (v ≠ v' → v ^^^ v' ≠ 0))

/-- R124: the four forms of the self-check are equivalent. -/
def Obligations.SelfCheckForms : Prop :=
  ∀ (H : List Byte) (c : Byte),
    let F := H ++ [c]
    (c = fold H 0x02 ↔ fold F 0x00 = 0x02) ∧ (fold F 0x00 = 0x02 ↔ fold F 0x02 = 0x00) ∧
    (F[0]? = some 0x02 → (fold F 0x00 = 0x02 ↔ fold (F.drop 1) 0x00 = 0x00))

/-- R123: the frame checksum in closed form. -/
def Obligations.ChecksumClosedForm : Prop :=
  ∀ P : List Byte, P.length ≤ 65534 →
    ∃ hi lo : Byte, u16be (P.length + 1) = [hi, lo] ∧
      (buildFrame P)[P.length + 4]? = some (hi ^^^ lo ^^^ fold P 0x00 ^^^ 0x03) ∧
      (buildFrame P)[P.length + 4]? = some (fold ((buildFrame P).take (P.length + 4)) 0x02)

/-- R90: the frame's layout, offset by offset. -/
def Obligations.FrameLayout : Prop :=
  ∀ P : List Byte, P.length ≤ 65534 →
    let F := buildFrame P
    let n := BitVec.ofNat 16 (P.length + 1)
    F.length = P.length + 5 ∧ F[0]? = some 0x02 ∧
    F[1]? = some (n.extractLsb' 8 8) ∧ F[2]? = some (n.extractLsb' 0 8) ∧
    (∀ i, i < P.length → F[3 + i]? = P[i]?) ∧ F[P.length + 3]? = some 0x03 ∧
    F[P.length + 4]? = some (fold (F.take (P.length + 4)) 0x02)

/-- R148, R149 and R151: `parse` undoes `build`, the length invariant, and `build` is injective. -/
def Obligations.BuildAndParse : Prop :=
  (∀ P : List Byte, P.length ≤ 65534 →
    parseFrame (buildFrame P) = P ∧ (buildFrame P).length = P.length + 5 ∧
    lengthField ((buildFrame P).getD 1 0) ((buildFrame P).getD 2 0) = P.length + 1 ∧
    P.length + 1 = (buildFrame P).length - 4) ∧
  (∀ P Q : List Byte, P.length ≤ 65534 → Q.length ≤ 65534 → buildFrame P = buildFrame Q → P = Q)

/-! The host's register space. -/

/-- R41, R42 and R110: the fields of the two status words, with the number of every result and state. -/
def Obligations.StatusWordFields : Prop :=
  (∀ u : TxUnit,
    u.status.extractLsb' 0 1 = (if u.state = .idle then 0 else 1) ∧
    u.status.extractLsb' 1 2 = (match u.result with | .none => 0#2 | .ok => 1#2 | .txLen => 2#2) ∧
    u.status.extractLsb' 3 1 = (if u.cmdErr then 1 else 0) ∧
    u.status.extractLsb' 4 4 = 0) ∧
  (∀ u : RxUnit,
    u.status.extractLsb' 0 1 = (if u.state = .idle then 0 else 1) ∧
    u.status.extractLsb' 1 3 = (match u.result with
      | .none => 0#3 | .ok => 1#3 | .timeout => 2#3 | .start => 3#3 | .length => 4#3 | .data => 5#3) ∧
    u.status.extractLsb' 4 1 = (if u.cmdErr then 1 else 0) ∧
    u.status.extractLsb' 5 2 = (match u.state with | .idle => 0#2 | .hunt => 1#2 | .hdr => 2#2 | .body => 3#2) ∧
    u.status.extractLsb' 7 1 = (if u.pvalid then 1 else 0))

/-- What every register outside the windows reads as (R39, R40, R43, R44, R45), whatever the units are doing. -/
def Obligations.ScalarRegisterReads : Prop :=
  ∀ s : State,
    let reads := fun (r : RegNo) (v : HostWord) => hostTurn (.read r) s = .next { s with hostData := v }
    reads 0x00000 0 ∧ reads 0x00001 (s.tx.status.setWidth 32) ∧ reads 0x00002 (s.tx.plen.setWidth 32) ∧
    reads 0x00003 (s.tx.seed.setWidth 32) ∧ reads 0x00004 (s.tx.lrc.setWidth 32) ∧
    reads 0x00005 (s.tx.flen.setWidth 32) ∧ reads 0x00006 (s.tx.idx.setWidth 32) ∧
    reads 0x00008 (s.rx.status.setWidth 32) ∧ reads 0x00009 s.rx.regTidle ∧ reads 0x0000A s.rx.regTframe ∧
    reads 0x0000B (s.rx.cnt.setWidth 32) ∧ reads 0x0000C (s.rx.len.setWidth 32) ∧
    reads 0x0000D (s.rx.poff.setWidth 32) ∧ reads 0x0000E (s.rx.plen.setWidth 32) ∧
    reads 0x0000F (s.rx.lrc.setWidth 32)

/-- The three windows of the register space (R39, R44): byte `i` of the buffer where R44 gives the read a value, and the
refusal `unspecifiedByte` where it calls the byte unspecified. -/
def Obligations.WindowReads : Prop :=
  ∀ (s : State) (i : Nat),
    (∀ r : RegNo, i ≤ 65534 → r.toNat = 0x10000 + i →
      (∀ b, s.tx.pay.read? i = some b → hostTurn (.read r) s = .next { s with hostData := b.setWidth 32 }) ∧
      (s.tx.pay.read? i = none → hostTurn (.read r) s = .refused .unspecifiedByte)) ∧
    (∀ r : RegNo, i ≤ 65538 → r.toNat = 0x20000 + i →
      (∀ b, i < s.tx.flen.toNat → s.tx.frm.read? i = some b →
        hostTurn (.read r) s = .next { s with hostData := b.setWidth 32 }) ∧
      (s.tx.flen.toNat ≤ i → hostTurn (.read r) s = .refused .unspecifiedByte)) ∧
    (∀ r : RegNo, i ≤ 65538 → r.toNat = 0x40000 + i →
      (∀ b, i < s.rx.cnt.toNat → s.rx.buf.read? i = some b →
        hostTurn (.read r) s = .next { s with hostData := b.setWidth 32 }) ∧
      (s.rx.cnt.toNat ≤ i → hostTurn (.read r) s = .refused .unspecifiedByte))

/-- R46: a reserved register number reads 0, a write to it is ignored, and neither sets a flag. -/
def Obligations.ReservedNumbers : Prop :=
  ∀ (s : State) (r : RegNo) (v : HostWord),
    (r.toNat = 0x00007 ∨ (0x00010 ≤ r.toNat ∧ r.toNat ≤ 0x0FFFF) ∨ r.toNat = 0x1FFFF ∨
      (0x30003 ≤ r.toNat ∧ r.toNat ≤ 0x3FFFF) ∨ (0x50003 ≤ r.toNat ∧ r.toNat ≤ 0x7FFFF)) →
    hostTurn (.read r) s = .next { s with hostData := 0 } ∧ hostTurn (.write r v) s = .next s

/-- R74: a host read has no side effect on the block, of any register in any state. -/
def Obligations.HostReadsHaveNoSideEffect : Prop :=
  ∀ (s t : State) (r : RegNo), hostTurn (.read r) s = .next t → t = { s with hostData := t.hostData }

/-- The host's writes (R34, R43, R44): the two timeout registers at any time, the TX operands while the TX unit is idle,
and no effect on any read-only register. -/
def Obligations.HostWrites : Prop :=
  ∀ (s : State) (v : HostWord),
    hostTurn (.write 0x00009 v) s = .next { s with rx := { s.rx with regTidle := v } } ∧
    hostTurn (.write 0x0000A v) s = .next { s with rx := { s.rx with regTframe := v } } ∧
    (s.tx.state = .idle →
      hostTurn (.write 0x00002 v) s = .next { s with tx := { s.tx with plen := v.setWidth 16 } } ∧
      hostTurn (.write 0x00003 v) s = .next { s with tx := { s.tx with seed := v.setWidth 8 } } ∧
      ∀ (r : RegNo) (i : Nat), i ≤ 65534 → r.toNat = 0x10000 + i →
        hostTurn (.write r v) s = .next { s with tx := { s.tx with pay := s.tx.pay.write i (v.setWidth 8) } }) ∧
    (∀ r : RegNo,
      (r.toNat = 0x00001 ∨ (0x00004 ≤ r.toNat ∧ r.toNat ≤ 0x00006) ∨ r.toNat = 0x00008 ∨
        (0x0000B ≤ r.toNat ∧ r.toNat ≤ 0x0000F) ∨ (0x20000 ≤ r.toNat ∧ r.toNat ≤ 0x20000 + 65538) ∨
        (0x40000 ≤ r.toNat ∧ r.toNat ≤ 0x40000 + 65538)) →
      hostTurn (.write r v) s = .next s)

/-- R82: later writes to `RX_TIDLE` and `RX_TFRAME` have no effect on a READ in flight: they commute with its steps. -/
def Obligations.LatchedOperandsStand : Prop :=
  ∀ (s t : State) (v w : HostWord), s.rx.state ≠ .idle → perform .rx s = .next t →
    perform .rx { s with rx := { s.rx with regTidle := v, regTframe := w } } =
      .next { t with rx := { t.rx with regTidle := v, regTframe := w } }

/-! Whole-machine rules. -/

/-- The reset state satisfies the invariant. -/
def Obligations.ResetSatisfiesInvariant : Prop := State.reset.Inv

/-- Every step keeps the invariant, from every state that has it. -/
def Obligations.StepKeepsInvariant : Prop :=
  ∀ s t : State, s.Inv → step s = .next t → t.Inv

/-- R49: its six clauses hold in every state any run from reset reaches, whatever the agents do in whatever order and
whatever the source answers. -/
def Obligations.RuleR49InReachableStates : Prop :=
  ∀ (agenda : List Turn) (incoming : List SrcAnswer) (n : Nat) (t : State),
    Host.Core.run core n ((State.reset.setAgenda agenda).setIncoming incoming) = .next t → RuleR49 t

/-- R37: no counter leaves its range, so no step from a state of the invariant reaches an index outside a buffer. -/
def Obligations.NoStepFaults : Prop :=
  ∀ (s : State) (r : Fault), s.Inv → step s ≠ .fault r

/-- R280, R281 and R50: the reset step, in any state: every register at its reset value, the streams untouched. `epoch`
is the model's own (log 5): the buffers hold no byte that a later step could know. -/
def Obligations.ResetStep : Prop :=
  ∀ s : State,
    let rx : RxUnit :=
      { state := .idle, result := .none, cmdErr := false, pvalid := false, strict := false, recv := false, cnt := 0,
        need := 0, len := 0, poff := 0, plen := 0, lrc := 0, tmr := 0, tidle := 0, tframe := Config.tFrameDefault,
        regTidle := 0, regTframe := Config.tFrameDefault, buf := [] }
    let tx : TxUnit :=
      { state := .idle, result := .none, cmdErr := false, plen := 0, flen := 0, idx := 0, seed := 0, lrc := 0,
        pay := [], frm := [] }
    perform .reset s = .next { s with rx := rx, tx := tx, epoch := s.epoch + 1 } ∧
    State.reset.rx = rx ∧ State.reset.tx = tx

/-- R79: the RX step and the TX step commute and neither touches the other's unit or stream. -/
def Obligations.RxAndTxStepsCommute : Prop :=
  ∀ (s s1 s2 : State) (ready : Bool), perform .rx s = .next s1 → perform (.tx ready) s = .next s2 →
    s1.tx = s.tx ∧ s1.outgoing = s.outgoing ∧ s2.rx = s.rx ∧ s2.incoming = s.incoming ∧
    ∃ t : State, perform (.tx ready) s1 = .next t ∧ perform .rx s2 = .next t

/-- What each instruction leaves alone (R20, R103): a TX command all RX state and the streams, an RX command all TX
state and the streams, a reserved command everything but the two flags, the wire all TX state; no instruction emits a
byte. -/
def Obligations.InstructionFrames : Prop :=
  ∀ (i : Instr) (s t : State), exec i s = .next t →
    t.outgoing = s.outgoing ∧ t.sourceOpen = s.sourceOpen ∧ t.agenda = s.agenda ∧ t.hostData = s.hostData ∧
    t.epoch = s.epoch ∧
    (i.port = .cmd → t.incoming = s.incoming ∧ t.draws = s.draws) ∧
    (i ∈ [Instr.checksum, .build, .send] → t.rx = s.rx ∧
      t.tx.pay = s.tx.pay ∧ t.tx.plen = s.tx.plen ∧ t.tx.seed = s.tx.seed) ∧
    (i ∈ [Instr.parse, .read true, .read false, .recv] → t.tx = s.tx ∧
      t.rx.buf = s.rx.buf ∧ t.rx.len = s.rx.len ∧ t.rx.need = s.rx.need ∧
      t.rx.regTidle = s.rx.regTidle ∧ t.rx.regTframe = s.rx.regTframe) ∧
    (∀ op st z, i = .reservedCmd op st z →
      t.rx = { s.rx with cmdErr := t.rx.cmdErr } ∧ t.tx = { s.tx with cmdErr := t.tx.cmdErr }) ∧
    (i.port = .wire → t.tx = s.tx ∧ t.rx.cmdErr = s.rx.cmdErr ∧ t.rx.regTidle = s.rx.regTidle ∧
      t.rx.regTframe = s.rx.regTframe)

/-- R264: an operation in flight ends only by its own steps or by reset. No other turn, a command or a host write among
them, changes anything of a busy TX unit but its command-error flag, or of a busy RX unit but that flag and the two host
registers it does not use. -/
def Obligations.OperationsInFlightStand : Prop :=
  ∀ (s t : State) (turn : Turn), perform turn s = .next t → turn ≠ .reset →
    (s.tx.state = .emit → turn ≠ .tx true → t.tx = { s.tx with cmdErr := t.tx.cmdErr }) ∧
    (s.rx.state ≠ .idle → turn ≠ .rx → (∀ bytes, turn ≠ .wire bytes) →
      t.rx = { s.rx with cmdErr := t.rx.cmdErr, regTidle := t.rx.regTidle, regTframe := t.rx.regTframe })

/-- R69, R144: the outgoing stream only grows, by at most one byte a step, and only in a TX step with a SEND in flight
and the sink ready. -/
def Obligations.OnlyTheTxStepEmits : Prop :=
  ∀ s t : State, step s = .next t →
    t.outgoing = s.outgoing ∨
      (∃ b, t.outgoing = s.outgoing ++ [b] ∧ (takeTurn s).1 = .tx true ∧ s.tx.state = .emit)

/-- R63, R68: while the RX unit is idle nothing is pulled from the source, and no step gives a byte back or reorders
what is left: a step leaves an end piece of the answers it found, apart from bytes the environment presents. -/
def Obligations.TheSourceIsReadInOrder : Prop :=
  ∀ s t : State, step s = .next t → (∀ bytes, (takeTurn s).1 ≠ .wire bytes) →
    (∃ taken, s.incoming = taken ++ t.incoming ∧ taken.length ≤ 1) ∧
    (s.rx.state = .idle → t.incoming = s.incoming)

/-- A byte source that is not open from the issue of a READ, RECV or SEND to its end: the run is refused (R255, R261, U5;
log 7). A SEND that ends `TX_LEN` at issue uses no source. -/
def Obligations.SourceFailureIsRefused : Prop :=
  ∀ s : State,
    (s.sourceOpen = false →
      (s.rx.state = .idle → ∀ w ∈ ([0x05, 0x06, 0x0D] : List Byte),
        issueCommand w s = .refused .sourceUnavailable) ∧
      (s.tx.state = .idle → s.tx.plen.toNat ≤ 65534 → issueCommand 0x03 s = .refused .sourceUnavailable) ∧
      (s.rx.state ≠ .idle ∨ s.tx.state ≠ .idle → perform (.source .opened) s = .refused .sourceUnavailable) ∧
      (s.rx.state ≠ .idle → perform .rx s = .refused .sourceUnavailable) ∧
      (s.tx.state ≠ .idle → perform (.tx true) s = .refused .sourceUnavailable)) ∧
    (s.rx.state ≠ .idle ∨ s.tx.state ≠ .idle → perform (.source .lost) s = .refused .sourceUnavailable)

/-- The byte source is the collaborator's: only its turns open or lose it, only while no READ, RECV or SEND is in flight,
and no other step changes its health (R261). -/
def Obligations.SourceIsTheCollaborators : Prop :=
  ∀ s t : State, step s = .next t →
    (t.sourceOpen ≠ s.sourceOpen →
      (∃ event, (takeTurn s).1 = .source event) ∧ s.rx.state = .idle ∧ s.tx.state = .idle) ∧
    ((takeTurn s).1 = .source .opened → t.sourceOpen = true ∧ t.rx = s.rx ∧ t.tx = s.tx) ∧
    ((takeTurn s).1 = .source .lost → t.sourceOpen = false ∧ t.rx = s.rx ∧ t.tx = s.tx)
end

