-- ==== Sys2Proof/Laws/State.lean ====
section
/-! SUPPORT. One lemma per field and per setter of State, all by rfl, so that no proof unfolds a record update. -/

namespace Sys2Proof.Machine

variable (s : State)

@[simp] theorem State.setRx_rx (u : RxUnit) : (s.setRx u).rx = u := rfl
@[simp] theorem State.setRx_tx (u : RxUnit) : (s.setRx u).tx = s.tx := rfl
@[simp] theorem State.setRx_incoming (u : RxUnit) : (s.setRx u).incoming = s.incoming := rfl
@[simp] theorem State.setRx_outgoing (u : RxUnit) : (s.setRx u).outgoing = s.outgoing := rfl
@[simp] theorem State.setRx_sourceOpen (u : RxUnit) : (s.setRx u).sourceOpen = s.sourceOpen := rfl
@[simp] theorem State.setRx_agenda (u : RxUnit) : (s.setRx u).agenda = s.agenda := rfl
@[simp] theorem State.setRx_hostData (u : RxUnit) : (s.setRx u).hostData = s.hostData := rfl
@[simp] theorem State.setRx_epoch (u : RxUnit) : (s.setRx u).epoch = s.epoch := rfl
@[simp] theorem State.setRx_draws (u : RxUnit) : (s.setRx u).draws = s.draws := rfl
@[simp] theorem State.setRx_self : s.setRx s.rx = s := rfl
@[simp] theorem State.setRx_setRx (u u2 : RxUnit) : (s.setRx u).setRx u2 = s.setRx u2 := rfl

@[simp] theorem State.setTx_rx (u : TxUnit) : (s.setTx u).rx = s.rx := rfl
@[simp] theorem State.setTx_tx (u : TxUnit) : (s.setTx u).tx = u := rfl
@[simp] theorem State.setTx_incoming (u : TxUnit) : (s.setTx u).incoming = s.incoming := rfl
@[simp] theorem State.setTx_outgoing (u : TxUnit) : (s.setTx u).outgoing = s.outgoing := rfl
@[simp] theorem State.setTx_sourceOpen (u : TxUnit) : (s.setTx u).sourceOpen = s.sourceOpen := rfl
@[simp] theorem State.setTx_agenda (u : TxUnit) : (s.setTx u).agenda = s.agenda := rfl
@[simp] theorem State.setTx_hostData (u : TxUnit) : (s.setTx u).hostData = s.hostData := rfl
@[simp] theorem State.setTx_epoch (u : TxUnit) : (s.setTx u).epoch = s.epoch := rfl
@[simp] theorem State.setTx_draws (u : TxUnit) : (s.setTx u).draws = s.draws := rfl
@[simp] theorem State.setTx_self : s.setTx s.tx = s := rfl
@[simp] theorem State.setTx_setTx (u u2 : TxUnit) : (s.setTx u).setTx u2 = s.setTx u2 := rfl

@[simp] theorem State.setIncoming_rx (l : List SrcAnswer) : (s.setIncoming l).rx = s.rx := rfl
@[simp] theorem State.setIncoming_tx (l : List SrcAnswer) : (s.setIncoming l).tx = s.tx := rfl
@[simp] theorem State.setIncoming_incoming (l : List SrcAnswer) : (s.setIncoming l).incoming = l := rfl
@[simp] theorem State.setIncoming_outgoing (l : List SrcAnswer) : (s.setIncoming l).outgoing = s.outgoing := rfl
@[simp] theorem State.setIncoming_sourceOpen (l : List SrcAnswer) : (s.setIncoming l).sourceOpen = s.sourceOpen := rfl
@[simp] theorem State.setIncoming_agenda (l : List SrcAnswer) : (s.setIncoming l).agenda = s.agenda := rfl
@[simp] theorem State.setIncoming_hostData (l : List SrcAnswer) : (s.setIncoming l).hostData = s.hostData := rfl
@[simp] theorem State.setIncoming_epoch (l : List SrcAnswer) : (s.setIncoming l).epoch = s.epoch := rfl
@[simp] theorem State.setIncoming_draws (l : List SrcAnswer) : (s.setIncoming l).draws = s.draws := rfl
@[simp] theorem State.setIncoming_self : s.setIncoming s.incoming = s := rfl
@[simp] theorem State.setIncoming_setIncoming (l l2 : List SrcAnswer) : (s.setIncoming l).setIncoming l2 = s.setIncoming l2 := rfl

@[simp] theorem State.setOutgoing_rx (l : List Byte) : (s.setOutgoing l).rx = s.rx := rfl
@[simp] theorem State.setOutgoing_tx (l : List Byte) : (s.setOutgoing l).tx = s.tx := rfl
@[simp] theorem State.setOutgoing_incoming (l : List Byte) : (s.setOutgoing l).incoming = s.incoming := rfl
@[simp] theorem State.setOutgoing_outgoing (l : List Byte) : (s.setOutgoing l).outgoing = l := rfl
@[simp] theorem State.setOutgoing_sourceOpen (l : List Byte) : (s.setOutgoing l).sourceOpen = s.sourceOpen := rfl
@[simp] theorem State.setOutgoing_agenda (l : List Byte) : (s.setOutgoing l).agenda = s.agenda := rfl
@[simp] theorem State.setOutgoing_hostData (l : List Byte) : (s.setOutgoing l).hostData = s.hostData := rfl
@[simp] theorem State.setOutgoing_epoch (l : List Byte) : (s.setOutgoing l).epoch = s.epoch := rfl
@[simp] theorem State.setOutgoing_draws (l : List Byte) : (s.setOutgoing l).draws = s.draws := rfl
@[simp] theorem State.setOutgoing_self : s.setOutgoing s.outgoing = s := rfl
@[simp] theorem State.setOutgoing_setOutgoing (l l2 : List Byte) : (s.setOutgoing l).setOutgoing l2 = s.setOutgoing l2 := rfl

@[simp] theorem State.setSourceOpen_rx (b : Bool) : (s.setSourceOpen b).rx = s.rx := rfl
@[simp] theorem State.setSourceOpen_tx (b : Bool) : (s.setSourceOpen b).tx = s.tx := rfl
@[simp] theorem State.setSourceOpen_incoming (b : Bool) : (s.setSourceOpen b).incoming = s.incoming := rfl
@[simp] theorem State.setSourceOpen_outgoing (b : Bool) : (s.setSourceOpen b).outgoing = s.outgoing := rfl
@[simp] theorem State.setSourceOpen_sourceOpen (b : Bool) : (s.setSourceOpen b).sourceOpen = b := rfl
@[simp] theorem State.setSourceOpen_agenda (b : Bool) : (s.setSourceOpen b).agenda = s.agenda := rfl
@[simp] theorem State.setSourceOpen_hostData (b : Bool) : (s.setSourceOpen b).hostData = s.hostData := rfl
@[simp] theorem State.setSourceOpen_epoch (b : Bool) : (s.setSourceOpen b).epoch = s.epoch := rfl
@[simp] theorem State.setSourceOpen_draws (b : Bool) : (s.setSourceOpen b).draws = s.draws := rfl
@[simp] theorem State.setSourceOpen_self : s.setSourceOpen s.sourceOpen = s := rfl
@[simp] theorem State.setSourceOpen_setSourceOpen (b b2 : Bool) : (s.setSourceOpen b).setSourceOpen b2 = s.setSourceOpen b2 := rfl

@[simp] theorem State.setAgenda_rx (l : List Turn) : (s.setAgenda l).rx = s.rx := rfl
@[simp] theorem State.setAgenda_tx (l : List Turn) : (s.setAgenda l).tx = s.tx := rfl
@[simp] theorem State.setAgenda_incoming (l : List Turn) : (s.setAgenda l).incoming = s.incoming := rfl
@[simp] theorem State.setAgenda_outgoing (l : List Turn) : (s.setAgenda l).outgoing = s.outgoing := rfl
@[simp] theorem State.setAgenda_sourceOpen (l : List Turn) : (s.setAgenda l).sourceOpen = s.sourceOpen := rfl
@[simp] theorem State.setAgenda_agenda (l : List Turn) : (s.setAgenda l).agenda = l := rfl
@[simp] theorem State.setAgenda_hostData (l : List Turn) : (s.setAgenda l).hostData = s.hostData := rfl
@[simp] theorem State.setAgenda_epoch (l : List Turn) : (s.setAgenda l).epoch = s.epoch := rfl
@[simp] theorem State.setAgenda_draws (l : List Turn) : (s.setAgenda l).draws = s.draws := rfl
@[simp] theorem State.setAgenda_self : s.setAgenda s.agenda = s := rfl
@[simp] theorem State.setAgenda_setAgenda (l l2 : List Turn) : (s.setAgenda l).setAgenda l2 = s.setAgenda l2 := rfl

@[simp] theorem State.setHostData_rx (v : HostWord) : (s.setHostData v).rx = s.rx := rfl
@[simp] theorem State.setHostData_tx (v : HostWord) : (s.setHostData v).tx = s.tx := rfl
@[simp] theorem State.setHostData_incoming (v : HostWord) : (s.setHostData v).incoming = s.incoming := rfl
@[simp] theorem State.setHostData_outgoing (v : HostWord) : (s.setHostData v).outgoing = s.outgoing := rfl
@[simp] theorem State.setHostData_sourceOpen (v : HostWord) : (s.setHostData v).sourceOpen = s.sourceOpen := rfl
@[simp] theorem State.setHostData_agenda (v : HostWord) : (s.setHostData v).agenda = s.agenda := rfl
@[simp] theorem State.setHostData_hostData (v : HostWord) : (s.setHostData v).hostData = v := rfl
@[simp] theorem State.setHostData_epoch (v : HostWord) : (s.setHostData v).epoch = s.epoch := rfl
@[simp] theorem State.setHostData_draws (v : HostWord) : (s.setHostData v).draws = s.draws := rfl
@[simp] theorem State.setHostData_self : s.setHostData s.hostData = s := rfl
@[simp] theorem State.setHostData_setHostData (v v2 : HostWord) : (s.setHostData v).setHostData v2 = s.setHostData v2 := rfl

@[simp] theorem State.setDraws_rx (n : Nat) : (s.setDraws n).rx = s.rx := rfl
@[simp] theorem State.setDraws_tx (n : Nat) : (s.setDraws n).tx = s.tx := rfl
@[simp] theorem State.setDraws_incoming (n : Nat) : (s.setDraws n).incoming = s.incoming := rfl
@[simp] theorem State.setDraws_outgoing (n : Nat) : (s.setDraws n).outgoing = s.outgoing := rfl
@[simp] theorem State.setDraws_sourceOpen (n : Nat) : (s.setDraws n).sourceOpen = s.sourceOpen := rfl
@[simp] theorem State.setDraws_agenda (n : Nat) : (s.setDraws n).agenda = s.agenda := rfl
@[simp] theorem State.setDraws_hostData (n : Nat) : (s.setDraws n).hostData = s.hostData := rfl
@[simp] theorem State.setDraws_epoch (n : Nat) : (s.setDraws n).epoch = s.epoch := rfl
@[simp] theorem State.setDraws_draws (n : Nat) : (s.setDraws n).draws = n := rfl
@[simp] theorem State.setDraws_self : s.setDraws s.draws = s := rfl
@[simp] theorem State.setDraws_setDraws (n n2 : Nat) : (s.setDraws n).setDraws n2 = s.setDraws n2 := rfl

theorem State.setTx_setRx (u : TxUnit) (v : RxUnit) : (s.setTx u).setRx v = (s.setRx v).setTx u := rfl

@[simp] theorem RxUnit.reject_state (u : RxUnit) : u.reject.state = u.state := rfl
@[simp] theorem RxUnit.reject_strict (u : RxUnit) : u.reject.strict = u.strict := rfl
@[simp] theorem RxUnit.reject_recv (u : RxUnit) : u.reject.recv = u.recv := rfl
@[simp] theorem RxUnit.reject_tidle (u : RxUnit) : u.reject.tidle = u.tidle := rfl
@[simp] theorem RxUnit.reject_tframe (u : RxUnit) : u.reject.tframe = u.tframe := rfl
@[simp] theorem RxUnit.reject_tmr (u : RxUnit) : u.reject.tmr = u.tmr := rfl
@[simp] theorem RxUnit.reject_buf (u : RxUnit) : u.reject.buf = u.buf := rfl
@[simp] theorem RxUnit.reject_cnt (u : RxUnit) : u.reject.cnt = u.cnt := rfl
@[simp] theorem RxUnit.reject_need (u : RxUnit) : u.reject.need = u.need := rfl
@[simp] theorem RxUnit.reject_len (u : RxUnit) : u.reject.len = u.len := rfl
@[simp] theorem RxUnit.reject_lrc (u : RxUnit) : u.reject.lrc = u.lrc := rfl
@[simp] theorem RxUnit.reject_result (u : RxUnit) : u.reject.result = u.result := rfl
@[simp] theorem RxUnit.reject_poff (u : RxUnit) : u.reject.poff = u.poff := rfl
@[simp] theorem RxUnit.reject_plen (u : RxUnit) : u.reject.plen = u.plen := rfl
@[simp] theorem RxUnit.reject_pvalid (u : RxUnit) : u.reject.pvalid = u.pvalid := rfl
@[simp] theorem RxUnit.reject_regTidle (u : RxUnit) : u.reject.regTidle = u.regTidle := rfl
@[simp] theorem RxUnit.reject_regTframe (u : RxUnit) : u.reject.regTframe = u.regTframe := rfl
@[simp] theorem RxUnit.reject_cmdErr (u : RxUnit) : u.reject.cmdErr = true := rfl

@[simp] theorem RxUnit.accept_state (u : RxUnit) : u.accept.state = u.state := rfl
@[simp] theorem RxUnit.accept_strict (u : RxUnit) : u.accept.strict = u.strict := rfl
@[simp] theorem RxUnit.accept_recv (u : RxUnit) : u.accept.recv = u.recv := rfl
@[simp] theorem RxUnit.accept_tidle (u : RxUnit) : u.accept.tidle = u.tidle := rfl
@[simp] theorem RxUnit.accept_tframe (u : RxUnit) : u.accept.tframe = u.tframe := rfl
@[simp] theorem RxUnit.accept_tmr (u : RxUnit) : u.accept.tmr = u.tmr := rfl
@[simp] theorem RxUnit.accept_buf (u : RxUnit) : u.accept.buf = u.buf := rfl
@[simp] theorem RxUnit.accept_cnt (u : RxUnit) : u.accept.cnt = u.cnt := rfl
@[simp] theorem RxUnit.accept_need (u : RxUnit) : u.accept.need = u.need := rfl
@[simp] theorem RxUnit.accept_len (u : RxUnit) : u.accept.len = u.len := rfl
@[simp] theorem RxUnit.accept_lrc (u : RxUnit) : u.accept.lrc = u.lrc := rfl
@[simp] theorem RxUnit.accept_result (u : RxUnit) : u.accept.result = u.result := rfl
@[simp] theorem RxUnit.accept_poff (u : RxUnit) : u.accept.poff = u.poff := rfl
@[simp] theorem RxUnit.accept_plen (u : RxUnit) : u.accept.plen = u.plen := rfl
@[simp] theorem RxUnit.accept_pvalid (u : RxUnit) : u.accept.pvalid = u.pvalid := rfl
@[simp] theorem RxUnit.accept_regTidle (u : RxUnit) : u.accept.regTidle = u.regTidle := rfl
@[simp] theorem RxUnit.accept_regTframe (u : RxUnit) : u.accept.regTframe = u.regTframe := rfl
@[simp] theorem RxUnit.accept_cmdErr (u : RxUnit) : u.accept.cmdErr = false := rfl

@[simp] theorem TxUnit.reject_state (u : TxUnit) : u.reject.state = u.state := rfl
@[simp] theorem TxUnit.reject_pay (u : TxUnit) : u.reject.pay = u.pay := rfl
@[simp] theorem TxUnit.reject_plen (u : TxUnit) : u.reject.plen = u.plen := rfl
@[simp] theorem TxUnit.reject_seed (u : TxUnit) : u.reject.seed = u.seed := rfl
@[simp] theorem TxUnit.reject_frm (u : TxUnit) : u.reject.frm = u.frm := rfl
@[simp] theorem TxUnit.reject_flen (u : TxUnit) : u.reject.flen = u.flen := rfl
@[simp] theorem TxUnit.reject_idx (u : TxUnit) : u.reject.idx = u.idx := rfl
@[simp] theorem TxUnit.reject_lrc (u : TxUnit) : u.reject.lrc = u.lrc := rfl
@[simp] theorem TxUnit.reject_result (u : TxUnit) : u.reject.result = u.result := rfl
@[simp] theorem TxUnit.reject_cmdErr (u : TxUnit) : u.reject.cmdErr = true := rfl

@[simp] theorem TxUnit.accept_state (u : TxUnit) : u.accept.state = u.state := rfl
@[simp] theorem TxUnit.accept_pay (u : TxUnit) : u.accept.pay = u.pay := rfl
@[simp] theorem TxUnit.accept_plen (u : TxUnit) : u.accept.plen = u.plen := rfl
@[simp] theorem TxUnit.accept_seed (u : TxUnit) : u.accept.seed = u.seed := rfl
@[simp] theorem TxUnit.accept_frm (u : TxUnit) : u.accept.frm = u.frm := rfl
@[simp] theorem TxUnit.accept_flen (u : TxUnit) : u.accept.flen = u.flen := rfl
@[simp] theorem TxUnit.accept_idx (u : TxUnit) : u.accept.idx = u.idx := rfl
@[simp] theorem TxUnit.accept_lrc (u : TxUnit) : u.accept.lrc = u.lrc := rfl
@[simp] theorem TxUnit.accept_result (u : TxUnit) : u.accept.result = u.result := rfl
@[simp] theorem TxUnit.accept_cmdErr (u : TxUnit) : u.accept.cmdErr = false := rfl

@[simp] theorem raiseRx_state (k : RxResult) (u : RxUnit) : (raiseRx k u).state = .idle := rfl
@[simp] theorem raiseRx_result (k : RxResult) (u : RxUnit) : (raiseRx k u).result = k := rfl
@[simp] theorem raiseRx_strict (k : RxResult) (u : RxUnit) : (raiseRx k u).strict = u.strict := rfl
@[simp] theorem raiseRx_recv (k : RxResult) (u : RxUnit) : (raiseRx k u).recv = u.recv := rfl
@[simp] theorem raiseRx_tidle (k : RxResult) (u : RxUnit) : (raiseRx k u).tidle = u.tidle := rfl
@[simp] theorem raiseRx_tframe (k : RxResult) (u : RxUnit) : (raiseRx k u).tframe = u.tframe := rfl
@[simp] theorem raiseRx_tmr (k : RxResult) (u : RxUnit) : (raiseRx k u).tmr = u.tmr := rfl
@[simp] theorem raiseRx_buf (k : RxResult) (u : RxUnit) : (raiseRx k u).buf = u.buf := rfl
@[simp] theorem raiseRx_cnt (k : RxResult) (u : RxUnit) : (raiseRx k u).cnt = u.cnt := rfl
@[simp] theorem raiseRx_need (k : RxResult) (u : RxUnit) : (raiseRx k u).need = u.need := rfl
@[simp] theorem raiseRx_len (k : RxResult) (u : RxUnit) : (raiseRx k u).len = u.len := rfl
@[simp] theorem raiseRx_lrc (k : RxResult) (u : RxUnit) : (raiseRx k u).lrc = u.lrc := rfl
@[simp] theorem raiseRx_cmdErr (k : RxResult) (u : RxUnit) : (raiseRx k u).cmdErr = u.cmdErr := rfl
@[simp] theorem raiseRx_poff (k : RxResult) (u : RxUnit) : (raiseRx k u).poff = u.poff := rfl
@[simp] theorem raiseRx_plen (k : RxResult) (u : RxUnit) : (raiseRx k u).plen = u.plen := rfl
@[simp] theorem raiseRx_pvalid (k : RxResult) (u : RxUnit) : (raiseRx k u).pvalid = u.pvalid := rfl
@[simp] theorem raiseRx_regTidle (k : RxResult) (u : RxUnit) : (raiseRx k u).regTidle = u.regTidle := rfl
@[simp] theorem raiseRx_regTframe (k : RxResult) (u : RxUnit) : (raiseRx k u).regTframe = u.regTframe := rfl

@[simp] theorem raiseTx_state (k : TxResult) (u : TxUnit) : (raiseTx k u).state = .idle := rfl
@[simp] theorem raiseTx_result (k : TxResult) (u : TxUnit) : (raiseTx k u).result = k := rfl
@[simp] theorem raiseTx_pay (k : TxResult) (u : TxUnit) : (raiseTx k u).pay = u.pay := rfl
@[simp] theorem raiseTx_plen (k : TxResult) (u : TxUnit) : (raiseTx k u).plen = u.plen := rfl
@[simp] theorem raiseTx_seed (k : TxResult) (u : TxUnit) : (raiseTx k u).seed = u.seed := rfl
@[simp] theorem raiseTx_frm (k : TxResult) (u : TxUnit) : (raiseTx k u).frm = u.frm := rfl
@[simp] theorem raiseTx_flen (k : TxResult) (u : TxUnit) : (raiseTx k u).flen = u.flen := rfl
@[simp] theorem raiseTx_idx (k : TxResult) (u : TxUnit) : (raiseTx k u).idx = u.idx := rfl
@[simp] theorem raiseTx_lrc (k : TxResult) (u : TxUnit) : (raiseTx k u).lrc = u.lrc := rfl
@[simp] theorem raiseTx_cmdErr (k : TxResult) (u : TxUnit) : (raiseTx k u).cmdErr = u.cmdErr := rfl

end Sys2Proof.Machine
end

