-- ==== Sys2Proof/Laws/Memory.lean ====
section
/-! SUPPORT. The laws of the byte buffers: read after write, and that every operation keeps the canonical form. -/

namespace Sys2Proof.Machine

@[simp] theorem Memory.read?_nil (i : Nat) : Memory.read? [] i = none := rfl

theorem Memory.read?_cons (a : Nat) (b : Byte) (m : Memory) (i : Nat) :
    Memory.read? ((a, b) :: m) i = if a = i then some b else Memory.read? m i := rfl

/-- Read after write, of any buffer. -/
theorem Memory.read?_write (m : Memory) (i j : Nat) (v : Byte) :
    (Memory.write m i v).read? j = if i = j then some v else m.read? j := by
  induction m with
  | nil => rfl
  | cons cell rest ih =>
    obtain ⟨a, b⟩ := cell
    unfold Memory.write
    split
    · rfl
    · split
      · subst_vars
        simp only [Memory.read?_cons]
        split <;> rfl
      · simp only [Memory.read?_cons, ih]
        split <;> split <;> first | rfl | omega

@[simp] theorem Memory.read?_write_self (m : Memory) (i : Nat) (v : Byte) :
    (Memory.write m i v).read? i = some v := by simp [Memory.read?_write]

theorem Memory.read?_write_ne (m : Memory) {i j : Nat} (v : Byte) (h : i ≠ j) :
    (Memory.write m i v).read? j = m.read? j := by simp [Memory.read?_write, h]

/-- Read after writing a list of bytes from `base` on. -/
theorem Memory.read?_writeList (bytes : List Byte) (m : Memory) (base j : Nat) :
    (Memory.writeList m base bytes).read? j =
      if base ≤ j ∧ j < base + bytes.length then bytes[j - base]? else m.read? j := by
  induction bytes generalizing m base with
  | nil =>
    simp only [Memory.writeList, List.length_nil, Nat.add_zero]
    rw [if_neg (by omega)]
  | cons b rest ih =>
    simp only [Memory.writeList, ih, List.length_cons, Memory.read?_write]
    by_cases h : base = j
    · subst h
      simp
    · by_cases h2 : base + 1 ≤ j ∧ j < base + 1 + rest.length
      · rw [if_pos h2, if_pos (by omega), show j - base = (j - (base + 1)) + 1 by omega, List.getElem?_cons_succ]
      · rw [if_neg h2, if_neg h, if_neg (by omega)]

theorem Memory.risingFrom_mono {lo lo' : Nat} {m : Memory} (h : Memory.risingFrom lo m = true) (hle : lo' ≤ lo) :
    Memory.risingFrom lo' m = true := by
  cases m with
  | nil => rfl
  | cons cell rest =>
    simp only [Memory.risingFrom, Bool.and_eq_true, decide_eq_true_eq] at h ⊢
    exact ⟨by omega, h.2⟩

theorem Memory.risingFrom_write {lo i : Nat} {m : Memory} (v : Byte) (h : Memory.risingFrom lo m = true)
    (hi : lo ≤ i) : Memory.risingFrom lo (Memory.write m i v) = true := by
  induction m generalizing lo with
  | nil => simp [Memory.write, Memory.risingFrom, hi]
  | cons cell rest ih =>
    obtain ⟨a, b⟩ := cell
    simp only [Memory.risingFrom, Bool.and_eq_true, decide_eq_true_eq] at h
    unfold Memory.write
    split
    · simp only [Memory.risingFrom, Bool.and_eq_true, decide_eq_true_eq]
      exact ⟨hi, by omega, h.2⟩
    · split
      · subst_vars
        simp only [Memory.risingFrom, Bool.and_eq_true, decide_eq_true_eq]
        exact h
      · simp only [Memory.risingFrom, Bool.and_eq_true, decide_eq_true_eq]
        exact ⟨h.1, ih h.2 (by omega)⟩

theorem Memory.all_write {p : Host.Cell → Bool} {m : Memory} (i : Nat) (v : Byte) (h : m.all p = true)
    (hp : p (i, v) = true) : (Memory.write m i v).all p = true := by
  induction m with
  | nil => simp [Memory.write, hp]
  | cons cell rest ih =>
    obtain ⟨a, b⟩ := cell
    simp only [List.all_cons, Bool.and_eq_true] at h
    unfold Memory.write
    split
    · simp [hp, h.1, h.2]
    · split
      · simp [hp, h.2]
      · simp [h.1, ih h.2]

/-- A write inside the buffer keeps the canonical form. -/
theorem Memory.wf_write {size i : Nat} {m : Memory} (v : Byte) (h : m.wf size = true) (hi : i < size) :
    (Memory.write m i v).wf size = true := by
  simp only [Memory.wf, Bool.and_eq_true] at h ⊢
  exact ⟨Memory.risingFrom_write v h.1 (Nat.zero_le _), Memory.all_write i v h.2 (by simpa using hi)⟩

/-- Writing a list of bytes that ends inside the buffer keeps the canonical form. -/
theorem Memory.wf_writeList {size : Nat} (bytes : List Byte) {m : Memory} {base : Nat} (h : m.wf size = true)
    (hb : base + bytes.length ≤ size) : (Memory.writeList m base bytes).wf size = true := by
  induction bytes generalizing m base with
  | nil => exact h
  | cons b rest ih =>
    simp only [List.length_cons] at hb
    exact ih (Memory.wf_write b h (by omega)) (by omega)

/-- Two buffers in canonical form that read alike everywhere are the same list. -/
theorem Memory.ext_of_risingFrom {lo : Nat} {m m' : Memory} (h : Memory.risingFrom lo m = true)
    (h' : Memory.risingFrom lo m' = true) (heq : ∀ i, m.read? i = m'.read? i) : m = m' := by
  have below : ∀ {m : Memory} {lo i : Nat}, Memory.risingFrom lo m = true → i < lo → m.read? i = none := by
    intro m
    induction m with
    | nil => intros; rfl
    | cons cell rest ih =>
      intro lo i hr hi
      simp only [Memory.risingFrom, Bool.and_eq_true, decide_eq_true_eq] at hr
      rw [Memory.read?_cons, if_neg (by omega), ih hr.2 (by omega)]
  induction m generalizing lo m' with
  | nil =>
    cases m' with
    | nil => rfl
    | cons cell rest =>
      obtain ⟨a, b⟩ := cell
      simpa [Memory.read?_cons] using heq a
  | cons cell rest ih =>
    obtain ⟨a, b⟩ := cell
    cases m' with
    | nil => simpa [Memory.read?_cons] using heq a
    | cons cell' rest' =>
      obtain ⟨a', b'⟩ := cell'
      simp only [Memory.risingFrom, Bool.and_eq_true, decide_eq_true_eq] at h h'
      have haa : a = a' := by
        rcases Nat.lt_trichotomy a a' with hlt | heq' | hlt
        · have := heq a
          rw [Memory.read?_cons, if_pos rfl, Memory.read?_cons, if_neg (by omega), below h'.2 (by omega)] at this
          cases this
        · exact heq'
        · have := heq a'
          rw [Memory.read?_cons, if_neg (by omega), below h.2 (by omega), Memory.read?_cons, if_pos rfl] at this
          cases this
      subst haa
      have hbb : b = b' := by simpa [Memory.read?_cons] using heq a
      subst hbb
      congr 1
      refine ih h.2 h'.2 fun i => ?_
      by_cases hi : a = i
      · subst hi
        rw [below h.2 (by omega), below h'.2 (by omega)]
      · simpa [Memory.read?_cons, hi] using heq i

/-! `firstBytes?`: the first `n` bytes, if all are written. -/

theorem Memory.firstBytes?_eq_some_iff (m : Memory) (n : Nat) (bytes : List Byte) :
    m.firstBytes? n = some bytes ↔ bytes.length = n ∧ ∀ i, i < n → m.read? i = bytes[i]? := by
  induction n generalizing bytes with
  | zero =>
    simp only [Memory.firstBytes?, Option.some.injEq, List.length_eq_zero_iff]
    constructor
    · rintro rfl; simp
    · rintro ⟨rfl, -⟩; rfl
  | succ n ih =>
    unfold Memory.firstBytes?
    constructor
    · intro h
      split at h
      next bs b hbs hb =>
        cases h
        obtain ⟨hl, hr⟩ := (ih bs).1 hbs
        refine ⟨by simp [hl], fun i hi => ?_⟩
        by_cases hin : i < n
        · rw [hr i hin, List.getElem?_append_left (by omega)]
        · have : i = n := by omega
          subst this
          rw [hb, List.getElem?_append_right (by omega), hl]
          simp
      next => cases h
    · rintro ⟨hl, hr⟩
      obtain rfl | ⟨bs, b, rfl⟩ := bytes.eq_nil_or_concat'
      · simp at hl
      · simp only [List.length_append, List.length_singleton] at hl
        have hbs : m.firstBytes? n = some bs := (ih bs).2 ⟨by omega, fun i hi => by
          rw [hr i (by omega), List.getElem?_append_left (by omega)]⟩
        have hb : m.read? n = some b := by
          rw [hr n (by omega), List.getElem?_append_right (by omega)]
          simp [show n - bs.length = 0 by omega]
        simp [hbs, hb]

/-- Storing the next byte extends them by it. -/
theorem Memory.firstBytes?_write_succ {m : Memory} {n : Nat} {bytes : List Byte} (h : m.firstBytes? n = some bytes)
    (v : Byte) : (Memory.write m n v).firstBytes? (n + 1) = some (bytes ++ [v]) := by
  obtain ⟨hl, hr⟩ := (Memory.firstBytes?_eq_some_iff m n bytes).1 h
  refine (Memory.firstBytes?_eq_some_iff _ _ _).2 ⟨by simp [hl], fun i hi => ?_⟩
  by_cases hin : i < n
  · rw [Memory.read?_write_ne _ _ (by omega), hr i hin, List.getElem?_append_left (by omega)]
  · have : i = n := by omega
    subst this
    rw [Memory.read?_write_self, List.getElem?_append_right (by omega), hl]
    simp

/-- After a list of bytes is written from index 0, they are the first bytes of its length. -/
theorem Memory.firstBytes?_writeList (m : Memory) (bytes : List Byte) :
    (Memory.writeList m 0 bytes).firstBytes? bytes.length = some bytes :=
  (Memory.firstBytes?_eq_some_iff _ _ _).2 ⟨rfl, fun i hi => by
    rw [Memory.read?_writeList, if_pos (by omega), Nat.sub_zero]⟩

end Sys2Proof.Machine
end

