-- ==== Sys2Proof/Laws/Turns.lean ====
section
/-! SUPPORT. What each shared operation can do, once: the commands, `SrcRead`, and the turns of the agents. Proofs cite
these instead of unfolding the operations. -/

namespace Sys2Proof.Machine

/-! Busy. -/

@[simp] theorem RxUnit.busy_eq_true (u : RxUnit) : u.busy = true ↔ u.state ≠ .idle := by simp [RxUnit.busy]
@[simp] theorem RxUnit.busy_eq_false (u : RxUnit) : u.busy = false ↔ u.state = .idle := by simp [RxUnit.busy]
@[simp] theorem TxUnit.busy_eq_true (u : TxUnit) : u.busy = true ↔ u.state ≠ .idle := by simp [TxUnit.busy]
@[simp] theorem TxUnit.busy_eq_false (u : TxUnit) : u.busy = false ↔ u.state = .idle := by simp [TxUnit.busy]

/-! Commands. -/

theorem rxCommand_of_idle (f : RxUnit → RxUnit) {s : State} (h : s.rx.state = .idle) :
    rxCommand f s = .next (s.setRx (f s.rx.accept)) := by
  simp [rxCommand, (RxUnit.busy_eq_false s.rx).2 h]

theorem rxCommand_of_busy (f : RxUnit → RxUnit) {s : State} (h : s.rx.state ≠ .idle) :
    rxCommand f s = .next (s.setRx s.rx.reject) := by
  simp [rxCommand, (RxUnit.busy_eq_true s.rx).2 h]

theorem txCommand_of_idle (f : TxUnit → TxUnit) {s : State} (h : s.tx.state = .idle) :
    txCommand f s = .next (s.setTx (f s.tx.accept)) := by
  simp [txCommand, (TxUnit.busy_eq_false s.tx).2 h]

theorem txCommand_of_busy (f : TxUnit → TxUnit) {s : State} (h : s.tx.state ≠ .idle) :
    txCommand f s = .next (s.setTx s.tx.reject) := by
  simp [txCommand, (TxUnit.busy_eq_true s.tx).2 h]

/-- A command of the RX unit completes always: rejected where the unit is busy, issued where it is idle. -/
theorem rxCommand_cases (f : RxUnit → RxUnit) (s : State) :
    (s.rx.state ≠ .idle ∧ rxCommand f s = .next (s.setRx s.rx.reject)) ∨
    (s.rx.state = .idle ∧ rxCommand f s = .next (s.setRx (f s.rx.accept))) := by
  by_cases h : s.rx.state = .idle
  · exact .inr ⟨h, rxCommand_of_idle f h⟩
  · exact .inl ⟨h, rxCommand_of_busy f h⟩

/-- A command of the TX unit completes always: rejected where the unit is busy, issued where it is idle. -/
theorem txCommand_cases (f : TxUnit → TxUnit) (s : State) :
    (s.tx.state ≠ .idle ∧ txCommand f s = .next (s.setTx s.tx.reject)) ∨
    (s.tx.state = .idle ∧ txCommand f s = .next (s.setTx (f s.tx.accept))) := by
  by_cases h : s.tx.state = .idle
  · exact .inr ⟨h, txCommand_of_idle f h⟩
  · exact .inl ⟨h, txCommand_of_busy f h⟩

/-! Operations on the byte source. -/

/-- A command that goes on had its source, and went on as it would without the test. -/
theorem onOpenSource_eq_next {begins : Bool} {s t : State} {r : Result} :
    onOpenSource begins s r = .next t ↔ (begins = true → s.sourceOpen = true) ∧ r = .next t := by
  unfold onOpenSource
  cases begins <;> cases s.sourceOpen <;> simp

theorem onOpenSource_of_open {begins : Bool} {s : State} (r : Result) (h : begins = true → s.sourceOpen = true) :
    onOpenSource begins s r = r := by
  unfold onOpenSource
  cases begins <;> cases hs : s.sourceOpen <;> simp_all

theorem onOpenSource_of_closed {s : State} (r : Result) (h : s.sourceOpen = false) :
    onOpenSource true s r = .refused .sourceUnavailable := by simp [onOpenSource, h]

/-- READ that goes on: the command of the RX unit it is, on a source that is open at an accepted issue. -/
theorem execRead_eq_next {strict : Bool} {s t : State} :
    execRead strict s = .next t ↔
      (s.rx.state = .idle → s.sourceOpen = true) ∧ rxCommand (readIssue false strict) s = .next t := by
  simp [execRead, onOpenSource_eq_next]

/-- RECV that goes on: as READ. -/
theorem execRecv_eq_next {s t : State} :
    execRecv s = .next t ↔
      (s.rx.state = .idle → s.sourceOpen = true) ∧ rxCommand (readIssue true false) s = .next t := by
  simp [execRecv, onOpenSource_eq_next]

/-- SEND that goes on: the command of the TX unit it is, on a source that is open at an accepted issue, unless it ends
`TX_LEN`. -/
theorem execSend_eq_next {s t : State} :
    execSend s = .next t ↔
      (s.tx.state = .idle → tooLong s.tx = false → s.sourceOpen = true) ∧
        txCommand (sendIssue s.epoch) s = .next t := by
  simp [execSend, onOpenSource_eq_next]

@[simp] theorem State.sourceInUse_eq_true (s : State) :
    s.sourceInUse = true ↔ s.rx.state ≠ .idle ∨ s.tx.state ≠ .idle := by
  simp [State.sourceInUse, RxUnit.busy, TxUnit.busy]

/-- A turn of the collaborator that goes on changes the source's health, and nothing else; one during a READ, RECV or
SEND changes nothing. -/
theorem sourceTurn_cases {event : SourceEvent} {s t : State} (h : sourceTurn event s = .next t) :
    t = s.setSourceOpen (decide (event = .opened)) ∧
      (s.rx.state ≠ .idle ∨ s.tx.state ≠ .idle → event = .opened ∧ s.sourceOpen = true) := by
  cases event <;> unfold sourceTurn at h <;> dsimp only at h <;> split at h <;> cases h
  next hn =>
    refine ⟨by simp, fun hb => ⟨rfl, ?_⟩⟩
    simpa [(State.sourceInUse_eq_true s).2 hb] using hn
  next hn => exact ⟨by simp, fun hb => absurd ((State.sourceInUse_eq_true s).2 hb) hn⟩

/-! `SrcRead`. -/

theorem srcRead_cons {s : State} {a : SrcAnswer} {rest : List SrcAnswer} (h : s.incoming = a :: rest) :
    srcRead s = (a, s.setIncoming rest) := by simp [srcRead, h]

theorem srcRead_nil {s : State} (h : s.incoming = []) :
    srcRead s = (Config.freeAnswer s.draws, s.setDraws (s.draws + 1)) := by simp [srcRead, h]

/-- `SrcRead` touches the list of answers and the count of free draws, and nothing else. -/
theorem srcRead_frame (s : State) :
    ∃ l n, (srcRead s).2 = (s.setIncoming l).setDraws n ∧ ∃ taken, s.incoming = taken ++ l ∧ taken.length ≤ 1 := by
  unfold srcRead
  split
  next a rest h => exact ⟨rest, s.draws, rfl, [a], h, by simp⟩
  next h => exact ⟨[], s.draws + 1, by rw [← h]; rfl, [], by simp [h], by simp⟩

@[simp] theorem srcRead_rx (s : State) : (srcRead s).2.rx = s.rx := by
  obtain ⟨l, n, h, -⟩ := srcRead_frame s
  rw [h]; rfl

@[simp] theorem srcRead_tx (s : State) : (srcRead s).2.tx = s.tx := by
  obtain ⟨l, n, h, -⟩ := srcRead_frame s
  rw [h]; rfl

@[simp] theorem srcRead_epoch (s : State) : (srcRead s).2.epoch = s.epoch := by
  obtain ⟨l, n, h, -⟩ := srcRead_frame s
  rw [h]; rfl

/-- What the RX unit becomes on an answer. -/
def rxOn (epoch : Nat) (a : SrcAnswer) (u : RxUnit) : RxUnit :=
  match a with
  | .tick => rxOnTick u
  | .byte b => rxOnByte epoch b u

/-- What an RX turn that goes on can be: an idle unit's, which changes nothing, or one answer taken. -/
theorem rxTurn_cases {s t : State} (h : rxTurn s = .next t) :
    (s.rx.state = .idle ∧ t = s) ∨
    (s.rx.state ≠ .idle ∧ s.sourceOpen = true ∧
      t = (srcRead s).2.setRx (rxOn s.epoch (srcRead s).1 s.rx) ∧
      (∀ b, (srcRead s).1 = .byte b → s.rx.state ≠ .hunt → s.rx.cnt.toNat < Config.rxBufSize)) := by
  unfold rxTurn at h
  split at h
  next hi =>
    cases h
    exact .inl ⟨hi, rfl⟩
  next hi =>
    split at h
    · cases h
    next ho =>
      refine .inr ⟨hi, by simpa using ho, ?_⟩
      unfold rxApply at h
      split at h
      next ha =>
        cases h
        refine ⟨by simp [rxOn, ha], fun b hb => ?_⟩
        rw [ha] at hb
        cases hb
      next b ha =>
        split at h
        · cases h
        next hc =>
          cases h
          refine ⟨by simp [rxOn, ha], fun b' _ hh => ?_⟩
          simp only [srcRead_rx, ne_eq, not_and, not_le] at hc
          exact hc hh

/-- An RX turn of a busy unit with the source open completes on the answer at hand, if a stored byte has its index. -/
theorem rxTurn_of_answer {s : State} {a : SrcAnswer} {rest : List SrcAnswer} (hs : s.rx.state ≠ .idle)
    (ho : s.sourceOpen = true) (hi : s.incoming = a :: rest)
    (hc : ∀ b, a = .byte b → s.rx.state ≠ .hunt → s.rx.cnt.toNat < Config.rxBufSize) :
    rxTurn s = .next ((s.setIncoming rest).setRx (rxOn s.epoch a s.rx)) := by
  unfold rxTurn
  rw [if_neg hs, if_neg (by simp [ho]), srcRead_cons hi]
  cases a with
  | tick => rfl
  | byte b =>
    have hcond : ¬(s.rx.state ≠ .hunt ∧ Config.rxBufSize ≤ s.rx.cnt.toNat) := by
      rintro ⟨h1, h2⟩
      exact absurd (hc b rfl h1) (by omega)
    exact if_neg hcond

theorem rxTurn_of_idle {s : State} (h : s.rx.state = .idle) : rxTurn s = .next s := by
  simp [rxTurn, h]

theorem rxTurns_of_idle {s : State} (h : s.rx.state = .idle) (n : Nat) : rxTurns n s = .next s := by
  induction n with
  | zero => rfl
  | succ n ih => simp [rxTurns, rxTurn_of_idle h, ih]

theorem rxTurns_succ {s t : State} (n : Nat) (h : rxTurn s = .next t) : rxTurns (n + 1) s = rxTurns n t := by
  simp [rxTurns, h]

theorem rxTurns_add (m n : Nat) (s : State) :
    rxTurns (m + n) s =
      match rxTurns m s with
      | .next t => rxTurns n t
      | .fault r => .fault r
      | .refused r => .refused r := by
  induction m generalizing s with
  | zero => simp [rxTurns]
  | succ m ih =>
    rw [show m + 1 + n = (m + n) + 1 by omega]
    simp only [rxTurns]
    cases rxTurn s with
    | next t => exact ih t
    | fault r => rfl
    | refused r => rfl

/-- Any property of states that an RX turn keeps, a run of RX turns keeps. -/
theorem rxTurns_induct {p : State → Prop} (hp : ∀ s t, p s → rxTurn s = .next t → p t) {n : Nat} {s t : State}
    (hs : p s) (h : rxTurns n s = .next t) : p t := by
  induction n generalizing s with
  | zero => cases h; exact hs
  | succ n ih =>
    simp only [rxTurns] at h
    cases hr : rxTurn s with
    | next m => rw [hr] at h; exact ih (hp s m hs hr) h
    | fault r => rw [hr] at h; cases h
    | refused r => rw [hr] at h; cases h

/-- An RX turn touches the RX unit, the answers left and the count of free draws, and nothing else. -/
theorem rxTurn_frame {s t : State} (h : rxTurn s = .next t) :
    ∃ l n, t = ((s.setIncoming l).setDraws n).setRx t.rx ∧ ∃ taken, s.incoming = taken ++ l ∧ taken.length ≤ 1 := by
  obtain ⟨-, rfl⟩ | ⟨-, -, rfl, -⟩ := rxTurn_cases h
  · exact ⟨t.incoming, t.draws, rfl, [], by simp, by simp⟩
  · obtain ⟨l, n, hf, ht⟩ := srcRead_frame s
    exact ⟨l, n, by rw [hf]; rfl, ht⟩

/-- What a TX turn that goes on can be: nothing, or one byte emitted. -/
theorem txTurn_cases {ready : Bool} {s t : State} (h : txTurn ready s = .next t) :
    ((s.tx.state = .idle ∨ ready = false) ∧ t = s) ∨
    (s.tx.state = .emit ∧ ready = true ∧ s.sourceOpen = true ∧ s.tx.idx.toNat < Config.txFrmSize ∧
      t = (srcWrite (s.tx.emitByte s.epoch) s).setTx (txAdvance s.tx)) := by
  unfold txTurn at h
  split at h
  next hi =>
    cases h
    exact .inl ⟨hi, rfl⟩
  next hi =>
    split at h
    · cases h
    next ho =>
      split at h
      · cases h
      next hx =>
        cases h
        refine .inr ⟨?_, by simpa using fun hr => hi (.inr hr), by simpa using ho, by omega, rfl⟩
        cases hst : s.tx.state with
        | idle => exact absurd (.inl hst) hi
        | emit => rfl

theorem txTurn_of_emit {s : State} (hs : s.tx.state = .emit) (ho : s.sourceOpen = true)
    (hi : s.tx.idx.toNat < Config.txFrmSize) :
    txTurn true s = .next ((srcWrite (s.tx.emitByte s.epoch) s).setTx (txAdvance s.tx)) := by
  unfold txTurn
  rw [if_neg (by simp [hs]), if_neg (by simp [ho]), if_neg (by omega)]

/-! The agenda. -/

theorem takeTurn_cons {s : State} {t : Turn} {rest : List Turn} (h : s.agenda = t :: rest) :
    takeTurn s = (t, s.setAgenda rest) := by simp [takeTurn, h]

theorem takeTurn_nil {s : State} (h : s.agenda = []) :
    takeTurn s = (Config.freeTurn s.draws, s.setDraws (s.draws + 1)) := by simp [takeTurn, h]

/-- Taking a turn touches the agenda and the count of free draws, and nothing else. -/
theorem takeTurn_frame (s : State) : ∃ l n, (takeTurn s).2 = (s.setAgenda l).setDraws n := by
  unfold takeTurn
  split
  next t rest h => exact ⟨rest, s.draws, rfl⟩
  next h => exact ⟨[], s.draws + 1, by rw [← h]; rfl⟩

end Sys2Proof.Machine
end

