-- ==== Sys2Proof/Laws/HostPort.lean ====
section
/-! SUPPORT. Which register a number names, and what a host read or write can do, once. -/

namespace Sys2Proof.Machine

theorem regOf_scalar {r : RegNo} (h : r.toNat < 0x10000) : regOf r = scalarReg r.toNat := by
  simp [regOf, txPayBase, h]

theorem regOf_txPay {r : RegNo} {i : Nat} (hi : i < Config.txPaySize) (h : r.toNat = txPayBase + i) :
    regOf r = .txPay i := by
  unfold regOf
  rw [if_neg (by omega), if_pos (by omega), h, Nat.add_sub_cancel_left]

theorem regOf_txFrm {r : RegNo} {i : Nat} (hi : i < Config.txFrmSize) (h : r.toNat = txFrmBase + i) :
    regOf r = .txFrm i := by
  have h1 : txPayBase + Config.txPaySize ≤ txFrmBase := by decide
  unfold regOf
  rw [if_neg (by omega), if_neg (by omega), if_pos (by omega), h, Nat.add_sub_cancel_left]

theorem regOf_rxBuf {r : RegNo} {i : Nat} (hi : i < Config.rxBufSize) (h : r.toNat = rxBufBase + i) :
    regOf r = .rxBuf i := by
  have h1 : txPayBase + Config.txPaySize ≤ txFrmBase := by decide
  have h2 : txFrmBase + Config.txFrmSize ≤ rxBufBase := by decide
  unfold regOf
  rw [if_neg (by omega), if_neg (by omega), if_neg (by omega), if_pos (by omega), h, Nat.add_sub_cancel_left]

/-- A number below the windows names a register of no window. -/
theorem scalarReg_cases (n : Nat) :
    scalarReg n = .reserved ∨
    (n ≤ 0x0F ∧ n ≠ 0x07 ∧ ∀ i, scalarReg n ≠ .txPay i ∧ scalarReg n ≠ .txFrm i ∧ scalarReg n ≠ .rxBuf i) := by
  unfold scalarReg
  split <;> simp

/-- Only a number of the `TX_PAY` window names a byte of it. -/
theorem regOf_eq_txPay {r : RegNo} {i : Nat} (h : regOf r = .txPay i) : i < Config.txPaySize := by
  unfold regOf at h
  split at h
  · rcases scalarReg_cases r.toNat with hs | ⟨-, -, hs⟩
    · rw [hs] at h; cases h
    · exact absurd h (hs i).1
  · split at h
    next h1 h2 =>
      simp only [Reg.txPay.injEq] at h
      omega
    · split at h
      · cases h
      · split at h <;> cases h

/-- A host read that goes on changes `hostData` and nothing else. -/
theorem hostRead_cases {r : Reg} {s t : State} (h : hostRead r s = .next t) :
    ∃ v, readReg r s = some v ∧ t = s.setHostData v := by
  unfold hostRead at h
  split at h
  next v hv =>
    cases h
    exact ⟨v, hv, rfl⟩
  · cases h

end Sys2Proof.Machine
end

