-- ==== Sys2Proof/Laws/PerInstr.lean ====
section
/-! SUPPORT. Statements for all instructions, one lemma for each constructor: how many bytes an encoding has. -/

namespace Sys2Proof.Laws.EncodedSize

open Sys2Proof Sys2Proof.Machine

/-- A command is one byte (30_encoding.md R100); a wire word has 1 byte or 5 to 65539 (30_encoding.md R98). -/
def Statement (i : Instr) : Prop :=
  i.wf = true →
    (i.port = .cmd → (encode i).length = 1) ∧
    (i.port = .wire → (encode i).length = 1 ∨ (5 ≤ (encode i).length ∧ (encode i).length ≤ 65539))

theorem nop : Statement .nop := fun _ => ⟨fun _ => rfl, fun h => nomatch h⟩

theorem checksum : Statement .checksum := fun _ => ⟨fun _ => rfl, fun h => nomatch h⟩

theorem build : Statement .build := fun _ => ⟨fun _ => rfl, fun h => nomatch h⟩

theorem send : Statement .send := fun _ => ⟨fun _ => rfl, fun h => nomatch h⟩

theorem parse : Statement .parse := fun _ => ⟨fun _ => rfl, fun h => nomatch h⟩

theorem read (strict : Bool) : Statement (.read strict) := fun _ => ⟨fun _ => rfl, fun h => nomatch h⟩

theorem recv : Statement .recv := fun _ => ⟨fun _ => rfl, fun h => nomatch h⟩

theorem reservedCmd (op : BitVec 3) (strict : BitVec 1) (zero : BitVec 4) :
    Statement (.reservedCmd op strict zero) := fun _ => ⟨fun _ => rfl, fun h => nomatch h⟩

theorem frame (payload : List Byte) : Statement (.frame payload) := by
  intro h
  have hp : payload.length ≤ 65534 := of_decide_eq_true h
  refine ⟨fun h => (nomatch h), fun _ => .inr ?_⟩
  simp only [encode, buildFrame, frameHead, u16be, List.length_append, List.length_cons, List.length_nil]
  omega

theorem stxHunt : Statement .stxHunt := fun _ => ⟨fun h => (nomatch h), fun _ => .inl rfl⟩

end Sys2Proof.Laws.EncodedSize
end

