-- ==== Sys2Proof/Laws/Receive.lean ====
section
/-! SUPPORT. What the parts of the RX step do to the RX unit, once, so that proofs need not unfold them. -/

namespace Sys2Proof.Machine

/-- While an index is left, the count does not wrap. -/
theorem storeByte_cnt {u : RxUnit} (b : Byte) (h : u.cnt.toNat < Config.rxBufSize) :
    (storeByte b u).cnt.toNat = u.cnt.toNat + 1 := by
  have h' : u.cnt.toNat < 65539 := h
  simp only [storeByte]
  rw [BitVec.toNat_add]
  simp
  omega

theorem storeByte_need {u : RxUnit} (b : Byte) (h : 1 ≤ u.need.toNat) :
    (storeByte b u).need.toNat = u.need.toNat - 1 := by
  have h' := u.need.isLt
  simp only [storeByte]
  rw [BitVec.toNat_sub]
  simp
  omega

/-- The stored byte joins the accumulated bytes at their end. -/
theorem storeByte_accumulated {u : RxUnit} {bytes : List Byte} (b : Byte) (h : u.accumulated = some bytes)
    (hc : u.cnt.toNat < Config.rxBufSize) : (storeByte b u).accumulated = some (bytes ++ [b]) := by
  have hcnt := storeByte_cnt b hc
  unfold RxUnit.accumulated
  rw [hcnt]
  exact Memory.firstBytes?_write_succ h b

/-- What `validate` can do: `OK` with or without the payload view, or `DATA`; all else stays. -/
theorem validate_cases (u : RxUnit) :
    (u.lrc = lrcSeed ∧ u.recv = false ∧ validate u = { u with result := .ok, state := .idle }) ∨
    (u.lrc = lrcSeed ∧ u.recv = true ∧ validate u = { payloadView u with result := .ok, state := .idle }) ∨
    (u.lrc ≠ lrcSeed ∧ validate u = { u with result := .data, state := .idle }) := by
  unfold validate
  by_cases h : u.lrc = lrcSeed
  · cases hr : u.recv with
    | false => exact .inl ⟨h, rfl, by simp [h, hr]⟩
    | true => exact .inr (.inl ⟨h, rfl, by simp [h, hr]⟩)
  · exact .inr (.inr ⟨h, by simp [h, raiseRx]⟩)

@[simp] theorem validate_buf (u : RxUnit) : (validate u).buf = u.buf := by
  obtain ⟨-, -, h⟩ | ⟨-, -, h⟩ | ⟨-, h⟩ := validate_cases u <;> rw [h] <;> rfl

@[simp] theorem validate_cnt (u : RxUnit) : (validate u).cnt = u.cnt := by
  obtain ⟨-, -, h⟩ | ⟨-, -, h⟩ | ⟨-, h⟩ := validate_cases u <;> rw [h] <;> rfl

@[simp] theorem validate_len (u : RxUnit) : (validate u).len = u.len := by
  obtain ⟨-, -, h⟩ | ⟨-, -, h⟩ | ⟨-, h⟩ := validate_cases u <;> rw [h] <;> rfl

@[simp] theorem validate_state (u : RxUnit) : (validate u).state = .idle := by
  obtain ⟨-, -, h⟩ | ⟨-, -, h⟩ | ⟨-, h⟩ := validate_cases u <;> rw [h]

/-- What a tick can do in a phase that expires with `kind`. -/
theorem countTick_cases (kind : RxResult) (u : RxUnit) :
    (u.tmr = 0 ∧ countTick kind u = { u with result := kind, state := .idle }) ∨
    (u.tmr ≠ 0 ∧ countTick kind u = { u with tmr := u.tmr - 1 } ∧ (u.tmr - 1).toNat + 1 = u.tmr.toNat) := by
  by_cases h : u.tmr = 0
  · exact .inl ⟨h, if_pos h⟩
  · refine .inr ⟨h, if_neg h, ?_⟩
    have h0 : u.tmr.toNat ≠ 0 := fun e => h (BitVec.eq_of_toNat_eq (by simpa using e))
    have h' := u.tmr.isLt
    rw [BitVec.toNat_sub]
    simp
    omega

/-- What the end of the header can do: with a declared length of 0 validation at once, else the body phase. -/
theorem headerComplete_cases (epoch : Nat) (u : RxUnit) :
    (declaredLength epoch u = 0 ∧ headerComplete epoch u = validate { u with len := 0 }) ∨
    (declaredLength epoch u ≠ 0 ∧ headerComplete epoch u =
      { u with
        len := BitVec.ofNat 16 (declaredLength epoch u)
        need := BitVec.ofNat 16 (declaredLength epoch u)
        tmr := u.tframe
        state := .body }) := by
  by_cases h : declaredLength epoch u = 0
  · exact .inl ⟨h, if_pos h⟩
  · exact .inr ⟨h, if_neg h⟩

/-! The answers by state. -/

theorem rxOnByte_hunt {u : RxUnit} (epoch : Nat) (b : Byte) (h : u.state = .hunt) :
    rxOnByte epoch b u = if b = stx then huntStart u else if u.strict then huntStrict b u else huntNoise u := by
  simp [rxOnByte, h]

theorem rxOnByte_hdr {u : RxUnit} (epoch : Nat) (b : Byte) (h : u.state = .hdr) :
    rxOnByte epoch b u =
      if (storeByte b u).need = 0 then headerComplete epoch (storeByte b u) else storeByte b u := by
  simp [rxOnByte, h]

theorem rxOnByte_body {u : RxUnit} (epoch : Nat) (b : Byte) (h : u.state = .body) :
    rxOnByte epoch b u = if (storeByte b u).need = 0 then validate (storeByte b u) else storeByte b u := by
  simp [rxOnByte, h]

theorem rxOnTick_hunt {u : RxUnit} (h : u.state = .hunt) : rxOnTick u = countTick .timeout u := by
  simp [rxOnTick, h]

theorem rxOnTick_hdr {u : RxUnit} (h : u.state = .hdr) : rxOnTick u = countTick .length u := by
  simp [rxOnTick, h]

theorem rxOnTick_body {u : RxUnit} (h : u.state = .body) : rxOnTick u = countTick .length u := by
  simp [rxOnTick, h]

end Sys2Proof.Machine
end

