-- ==== Sys2Proof/Tests/Slice0.lean ====
section
/-! SUPPORT. The model's own tests: expected results are the vectors of 95_test_vectors.md (named in each comment) and
words written out from 30_encoding.md; then one witness for each statement that has hypotheses. -/

namespace Sys2Proof.Tests

open Sys2Proof.Machine

/-! Small states. -/

/-- An idle TX unit with these operands. -/
def txWith (pay : List Byte) (seed : Byte) : State :=
  { State.reset with
    tx := { TxUnit.reset with pay := Memory.writeList [] 0 pay, plen := BitVec.ofNat 16 pay.length, seed := seed } }

/-- `tx_plen` = 65535. -/
def txTooLong : State := { State.reset with tx := { TxUnit.reset with plen := 65535 } }

/-- A SEND of "ABC" (B3) of which `idx` bytes have been emitted. -/
def sending (idx : Count) : State :=
  { State.reset with
    tx := { TxUnit.reset with
      state := .emit
      plen := 3
      frm := Memory.writeList [] 0 [0x02, 0x00, 0x04, 0x41, 0x42, 0x43, 0x03, 0x47]
      flen := 8
      idx := idx
      lrc := 0x47 } }

/-- An idle RX unit with `RX_TIDLE` = 2 and `RX_TFRAME` = 5. -/
def idleRx : RxUnit := { RxUnit.reset with regTidle := 2, regTframe := 5 }

/-- An idle RX unit before these answers. -/
def waiting (incoming : List SrcAnswer) : State := { State.reset with rx := idleRx, incoming := incoming }

/-- A READ or RECV in HUNT, just issued. -/
def hunting (recv strict : Bool) (incoming : List SrcAnswer) : State :=
  { State.reset with rx := readIssue recv strict idleRx, incoming := incoming }

/-- A READ or RECV in HDR that has these bytes. -/
def inHeader (recv : Bool) (bytes : List Byte) (incoming : List SrcAnswer) : State :=
  { State.reset with
    incoming := incoming
    rx := { readIssue recv false idleRx with
      state := .hdr
      tmr := 5
      buf := Memory.writeList [] 0 bytes
      cnt := BitVec.ofNat 17 bytes.length
      need := BitVec.ofNat 16 (4 - bytes.length)
      lrc := fold bytes 0 } }

/-- A READ or RECV in BODY that has these bytes and this declared length. -/
def inBody (recv : Bool) (bytes : List Byte) (n : Nat) (incoming : List SrcAnswer) : State :=
  { State.reset with
    incoming := incoming
    rx := { readIssue recv false idleRx with
      state := .body
      tmr := 5
      buf := Memory.writeList [] 0 bytes
      cnt := BitVec.ofNat 17 bytes.length
      len := BitVec.ofNat 16 n
      need := BitVec.ofNat 16 (n + 4 - bytes.length)
      lrc := fold bytes 0 } }

/-- The outcome is a next state of which this holds. -/
def after (r : Result) (p : State → Bool) : Bool :=
  match r with
  | .next t => p t
  | .fault _ => false
  | .refused _ => false

/-! Well-formedness: an ill-formed term for each check, which the check refuses. -/

theorem test_wf_refuses_a_valid_command_as_reserved : (Instr.reservedCmd 0 0 0).wf = false := by decide

theorem test_wf_refuses_read_as_reserved : (Instr.reservedCmd 5 1 0).wf = false := by decide

theorem test_wf_refuses_an_overlong_frame : (Instr.frame (List.replicate 65535 0x55)).wf = false := by
  simp only [Instr.wf, maxPayload, List.length_replicate]
  decide

theorem test_wf_accepts_the_longest_frame : (Instr.frame (List.replicate 65534 0x55)).wf = true := by
  simp only [Instr.wf, maxPayload, List.length_replicate]
  decide

/-! Decoding: every constructor by a word written out from its encoding (30_encoding.md R90, R100, R101, R104). -/

theorem test_decode_nop : decode .cmd [0b00000000] = .ok .nop := by decide

theorem test_decode_checksum : decode .cmd [0b00000001] = .ok .checksum := by decide

theorem test_decode_build : decode .cmd [0b00000010] = .ok .build := by decide

theorem test_decode_send : decode .cmd [0b00000011] = .ok .send := by decide

theorem test_decode_parse : decode .cmd [0b00000100] = .ok .parse := by decide

theorem test_decode_read : decode .cmd [0b00000101] = .ok (.read false) := by decide

theorem test_decode_read_strict : decode .cmd [0b00001101] = .ok (.read true) := by decide

theorem test_decode_recv : decode .cmd [0b00000110] = .ok .recv := by decide

theorem test_decode_reserved : decode .cmd [0b10000101] = .ok (.reservedCmd 5 0 8) := by decide

/-- `STRICT` with SEND (X5). -/
theorem test_decode_reserved_strict : decode .cmd [0b00001011] = .ok (.reservedCmd 3 1 0) := by decide

/-- B2. -/
theorem test_decode_frame : decode .wire [0x02, 0x00, 0x02, 0x41, 0x03, 0x40] = .ok (.frame [0x41]) := by decide

theorem test_decode_stxHunt : decode .wire [0b00000010] = .ok .stxHunt := by decide

/-- A table word has the first byte in its low bits: B1. -/
theorem test_decode_table_word : decodeTableWord 40 0x0203010002 = some (.frame []) := by decide

theorem test_decode_rejects :
    decode .wire [0x03] = .error .notAStartByte ∧ decode .wire [] = .error .emptyWireWord ∧
    decode .wire [0x02, 0x00] = .error .frameTooShort ∧
    decode .wire [0x02, 0x00, 0x02, 0x03, 0x02] = .error .lengthMismatch ∧
    decode .cmd [0x01, 0x01] = .error .commandIsOneByte := by decide

/-- B3 and B6, encoded. -/
theorem test_encode_frame :
    encode (.frame [0x41, 0x42, 0x43]) = [0x02, 0x00, 0x04, 0x41, 0x42, 0x43, 0x03, 0x47] ∧
    encode (.frame [0x02, 0x03]) = [0x02, 0x00, 0x03, 0x02, 0x03, 0x03, 0x01] := by decide

/-! One step of each instruction. -/

/-- X1. -/
theorem test_nop_sets_no_flag :
    after (exec .nop (hunting false false [])) (fun t => t.tx.status == 0x00 && t.rx.status == 0x21) = true := by decide

/-- K7. -/
theorem test_checksum : after (exec .checksum (txWith [0x02, 0x00, 0x04, 0x41, 0x42, 0x43, 0x03] 0x02))
    (fun t => t.tx.lrc == 0x47 && t.tx.status == 0x02) = true := by decide

/-- K6. -/
theorem test_checksum_equal_bytes_cancel :
    after (exec .checksum (txWith [0xFF, 0xFF] 0x12)) (fun t => t.tx.lrc == 0x12) = true := by decide

/-- B7. -/
theorem test_build : after (exec .build (txWith [0x1C, 0x61, 0x62, 0x63, 0x64, 0x65, 0x66, 0x67, 0x68] 0x00))
    (fun t => t.tx.built == some
        [0x02, 0x00, 0x0A, 0x1C, 0x61, 0x62, 0x63, 0x64, 0x65, 0x66, 0x67, 0x68, 0x03, 0x1D] &&
      t.tx.flen == 14 && t.tx.lrc == 0x1D && t.tx.status == 0x02) = true := by decide

/-- B19. -/
theorem test_build_too_long :
    after (exec .build txTooLong) (fun t => t.tx.status == 0x04 && t.tx.flen == 0 && t.tx.frm == []) = true := by
  decide

/-- P1, its first status reads. -/
theorem test_send_issue : after (exec .send (txWith [0x41, 0x42, 0x43] 0x00))
    (fun t => t.tx.status == 0x01 && t.tx.flen == 8 && t.tx.lrc == 0x47 && t.tx.idx == 0 && t.outgoing == []) = true := by
  decide

/-- P1, the last of its TX steps. -/
theorem test_send_last_byte : after (perform (.tx true) (sending 7))
    (fun t => t.outgoing == [0x47] && t.tx.idx == 8 && t.tx.status == 0x02) = true := by decide

/-- A7: PARSE of a context of 6 bytes. -/
theorem test_parse :
    after (exec .parse { State.reset with rx := { RxUnit.reset with cnt := 6, result := .length } })
      (fun t => t.rx.poff == 3 && t.rx.plen == 1 && t.rx.pvalid && t.rx.result == .length) = true := by decide

/-- A4. -/
theorem test_parse_short :
    after (exec .parse { State.reset with rx := { RxUnit.reset with cnt := 4, result := .ok } })
      (fun t => t.rx.poff == 3 && t.rx.plen == 0 && t.rx.status == 0x82) = true := by decide

/-- P2, its first status read. -/
theorem test_read_issue :
    after (exec (.read false) (waiting [])) (fun t => t.rx.status == 0x21 && t.rx.tmr == 2 && t.rx.tframe == 5) = true := by
  decide

/-- X7. -/
theorem test_read_rejected :
    after (exec (.read true) (hunting false false [])) (fun t => t.rx.status == 0x31 && !t.rx.strict) = true := by decide

/-- P4, the status after RECV is issued. -/
theorem test_recv_issue :
    after (exec .recv (waiting [])) (fun t => t.rx.status == 0x21 && t.rx.recv && !t.rx.strict) = true := by decide

/-- V31: a RECV ends with its payload view. -/
theorem test_recv_ends : after (perform .rx (inBody true [0x02, 0x00, 0x01, 0x03] 1 [.byte 0x02]))
    (fun t => t.rx.status == 0x82 && t.rx.cnt == 5 && t.rx.plen == 0) = true := by decide

/-- X2. -/
theorem test_reserved_both : after (exec (.reservedCmd 7 0 0) State.reset)
    (fun t => t.tx.status == 0x08 && t.rx.status == 0x10) = true := by decide

/-- X4. -/
theorem test_reserved_rx_only : after (exec (.reservedCmd 4 1 0) State.reset)
    (fun t => t.tx.status == 0x00 && t.rx.status == 0x10) = true := by decide

/-- V30, without its noise byte. -/
theorem test_frame_received : after (exec (.frame [0x41, 0x42, 0x43]) (hunting true false []))
    (fun t => t.rx.status == 0x82 && t.rx.cnt == 8 && t.rx.poff == 3 && t.rx.plen == 3 && t.rx.lrc == 0x02) = true := by
  decide

/-- A frame before an idle reader stays with the source (42_frame_reader.md R187). -/
theorem test_frame_before_idle_reader : after (exec (.frame []) (waiting []))
    (fun t => t.incoming == [.byte 0x02, .byte 0x00, .byte 0x01, .byte 0x03, .byte 0x02] && t.rx.status == 0x00) =
      true := by decide

/-- The step of P2 on the byte 02. -/
theorem test_stxHunt_starts_a_frame : after (exec .stxHunt (hunting false false []))
    (fun t => t.rx.status == 0x41 && t.rx.tmr == 5 && t.rx.need == 3 && t.rx.cnt == 1) = true := by decide

/-- V20: 02 inside a frame is data. -/
theorem test_stxHunt_is_data : after (exec .stxHunt (inHeader false [0x02, 0x02, 0x00] []))
    (fun t => t.rx.status == 0x61 && t.rx.len == 512 && t.rx.need == 512 && t.rx.tmr == 5) = true := by decide

/-! The reader's other ends, one turn each. -/

/-- V10. -/
theorem test_corrupt_frame_is_data :
    after (perform (.wire [0x02, 0x00, 0x04, 0x41, 0x52, 0x43, 0x03, 0x47]) (hunting false false []))
      (fun t => t.rx.status == 0x0A && t.rx.lrc == 0x12) = true := by decide

/-- V10b: the end byte is not checked. -/
theorem test_end_byte_is_not_checked :
    after (perform (.wire [0x02, 0x00, 0x04, 0x41, 0x42, 0x43, 0x04, 0x40]) (hunting false false []))
      (fun t => t.rx.status == 0x02) = true := by decide

/-- V12: length field 0. -/
theorem test_length_zero : after (perform (.wire [0x02, 0x00, 0x00, 0x00]) (hunting false false []))
    (fun t => t.rx.status == 0x02 && t.rx.cnt == 4) = true := by decide

/-- V3. -/
theorem test_strict_start : after (perform .rx (hunting false true [.byte 0x55, .byte 0xAA]))
    (fun t => t.rx.status == 0x06 && t.rx.accumulated == some [0x55] && t.incoming == [.byte 0xAA]) = true := by decide

/-- V5: `t` = 0. -/
theorem test_timeout : after (perform .rx { hunting false false [.tick] with rx := readIssue false false RxUnit.reset })
    (fun t => t.rx.status == 0x04 && t.rx.cnt == 0) = true := by decide

/-! The step, from the reset state. -/

theorem test_step_from_reset :
    after (step (State.reset.withFetchWord 8 0x05)) (fun t => t.rx.status == 0x21) = true ∧
    after (step (State.reset.withFetchWord 8 0x02))
      (fun t => t.tx.built == some [0x02, 0x00, 0x01, 0x03, 0x02]) = true := by decide

/-- READ, RECV and SEND issued on a source that is not open, and its opening while they run, are refused
(60_exceptions.md R255, R261); a SEND that ends `TX_LEN` runs (R245). -/
theorem test_closed_source :
    issueCommand 0x05 (State.reset.setSourceOpen false) = .refused .sourceUnavailable ∧
    issueCommand 0x06 (State.reset.setSourceOpen false) = .refused .sourceUnavailable ∧
    issueCommand 0x03 (State.reset.setSourceOpen false) = .refused .sourceUnavailable ∧
    perform (.source .opened) ((sending 0).setSourceOpen false) = .refused .sourceUnavailable ∧
    after (issueCommand 0x03 (txTooLong.setSourceOpen false)) (fun t => t.tx.result == .txLen) = true := by
  refine ⟨?_, ?_, ?_, ?_, ?_⟩ <;> first | rfl | decide

/-- A host read of a byte the spec leaves unspecified is refused (10_state.md R44). -/
theorem test_unspecified_byte : hostTurn (.read 0x10000) State.reset = .refused .unspecifiedByte := rfl

/-! Witnesses: concrete states and operands that meet the hypotheses of the statements, clause by clause. -/

/-- The reader in HUNT satisfies the invariant, whatever the source and the agenda hold. -/
theorem test_witness_inv_hunt (recv strict : Bool) (h : recv = true → strict = false) (incoming : List SrcAnswer)
    (agenda : List Turn) : ((hunting recv strict incoming).setAgenda agenda).Inv := by
  refine ⟨⟨?_, ?_, ?_, ?_, ?_, ?_⟩, ⟨?_, ?_, ?_, ?_, ?_⟩, ⟨?_, ?_, ?_, ?_, ?_, ?_, ?_⟩, ⟨?_, ?_, ?_, ?_, ?_⟩, ?_⟩ <;>
    simp [State.setAgenda, hunting, readIssue, idleRx, RxUnit.reset, State.reset, TxUnit.reset, RxUnit.accumulated, TxUnit.built,
      Memory.firstBytes?, Memory.wf, Memory.risingFrom, fold, SourceOk]
  exact h

/-- The reader in HDR, one byte before the header is complete. -/
theorem test_witness_inv_hdr : (inHeader false [0x02, 0x00, 0x04] [.byte 0x41]).Inv := by
  refine ⟨⟨?_, ?_, ?_, ?_, ?_, ?_⟩, ⟨?_, ?_, ?_, ?_, ?_⟩, ⟨?_, ?_, ?_, ?_, ?_, ?_, ?_⟩, ⟨?_, ?_, ?_, ?_, ?_⟩, ?_⟩
  · exact fun h => by cases h
  · exact fun _ => ⟨by decide, by decide, by decide, by decide⟩
  · exact fun h => by cases h
  · exact fun _ => ⟨rfl, [0x02, 0x00, 0x04], by decide, by decide⟩
  · exact fun h => by cases h
  · exact fun h => by cases h
  all_goals first
    | decide
    | exact fun _ => rfl

/-- The reader in BODY, its last byte missing. -/
theorem test_witness_inv_body :
    (inBody false [0x02, 0x00, 0x01, 0x03] 1 [.byte 0x02]).Inv := by
  refine ⟨⟨?_, ?_, ?_, ?_, ?_, ?_⟩, ⟨?_, ?_, ?_, ?_, ?_⟩, ⟨?_, ?_, ?_, ?_, ?_, ?_, ?_⟩, ⟨?_, ?_, ?_, ?_, ?_⟩, ?_⟩
  · exact fun h => by cases h
  · exact fun h => by cases h
  · exact fun _ => ⟨by decide, by decide, by decide, by decide, by decide, 0x00, 0x01, by decide, by decide, by decide⟩
  · exact fun _ => ⟨rfl, [0x02, 0x00, 0x01, 0x03], by decide, by decide⟩
  · exact fun h => by cases h
  · exact fun h => by cases h
  all_goals first
    | decide
    | exact fun _ => rfl

theorem test_witness_DecodeInvertsEncode :
    (Instr.frame [0x41]).wf = true ∧ (Instr.reservedCmd 7 0 0).wf = true ∧ (Instr.reservedCmd 0 1 15).wf = true := by
  decide

theorem test_witness_EncodeInvertsDecode :
    decode .wire [0x02, 0x00, 0x01, 0x03, 0x02] = .ok (.frame []) ∧ decode .cmd [0x0D] = .ok (.read true) := by decide

theorem test_witness_CommandWordsDecodeByTable :
    ∀ w ∈ ([0x07, 0x08, 0x0C, 0x0E, 0x10, 0xFF] : List Byte),
      w ∉ ([0x00, 0x01, 0x02, 0x03, 0x04, 0x05, 0x06, 0x0D] : List Byte) := by decide

theorem test_witness_StepPerformsTheNextTurn :
    (State.reset.setAgenda [Turn.rx]).agenda = [Turn.rx] ∧ State.reset.agenda = [] := ⟨rfl, rfl⟩

theorem test_witness_StepRunsTheDecodedInstruction :
    ((State.reset.setAgenda [.host (.write 0 0x0D)]).agenda = .host (.write 0 0x0D) :: [] ∧
      decode .cmd [(0x0D : HostWord).setWidth 8] = .ok (.read true)) ∧
    ((State.reset.setAgenda [.wire [0x02]]).agenda = .wire [0x02] :: [] ∧ decode .wire [0x02] = .ok .stxHunt) := by
  decide

theorem test_witness_NopAndReservedCommands :
    ∀ w ∈ ([0x07, 0x08, 0x0B, 0x0C, 0x10, 0x85, 0xFF] : List Byte),
      w ∉ ([0x00, 0x01, 0x02, 0x03, 0x04, 0x05, 0x06, 0x0D] : List Byte) := by decide

theorem test_witness_CommandAcceptance :
    (0x01 ∈ ([0x01, 0x02, 0x03] : List Byte) ∧ (sending 0).tx.state ≠ .idle) ∧
    (0x0D ∈ ([0x04, 0x05, 0x06, 0x0D] : List Byte) ∧ (hunting false false []).rx.state ≠ .idle) ∧
    (State.reset.tx.state = .idle ∧ State.reset.rx.state = .idle ∧ State.reset.sourceOpen = true) ∧
    ((txTooLong.setSourceOpen false).tx.state = .idle ∧ (txTooLong.setSourceOpen false).tx.plen.toNat > 65534) ∧
    ((0x00002 : RegNo).toNat = 0x00002 ∧ (0x00003 : RegNo).toNat = 0x00003 ∧
      0x10000 ≤ (0x10000 : RegNo).toNat ∧ (0x1FFFE : RegNo).toNat ≤ 0x10000 + 65534) := by decide

theorem test_witness_ChecksumResult :
    (txWith [0x41, 0x42] 0x5A).tx.state = .idle ∧ 1 < (txWith [0x41, 0x42] 0x5A).tx.plen.toNat ∧
    (txWith [0x41, 0x42] 0x5A).tx.pay.read? 1 = some 0x42 := by decide

/-- The longest payload BUILD and SEND take, and the empty one. -/
theorem test_witness_BuildResult :
    ({ State.reset with tx := { TxUnit.reset with plen := 65534 } } : State).tx.state = .idle ∧
    ({ State.reset with tx := { TxUnit.reset with plen := 65534 } } : State).tx.plen.toNat ≤ 65534 ∧
    State.reset.tx.state = .idle ∧ State.reset.tx.plen.toNat ≤ 65534 := by decide

/-- A busy unit, for the statements' clauses on acceptance. -/
theorem test_witness_busy : (sending 0).tx.state ≠ .idle ∧ (hunting false false []).rx.state ≠ .idle := by decide

theorem test_witness_OverlongPayloadIsRefused :
    txTooLong.tx.state = .idle ∧ txTooLong.tx.plen.toNat > 65534 := by decide

/-- The hypotheses of SEND are those of BUILD, with the source open or not. -/
theorem test_witness_SendIssueResult :
    (txWith [0x41, 0x42, 0x43] 0).tx.state = .idle ∧ (txWith [0x41, 0x42, 0x43] 0).tx.plen.toNat ≤ 65534 ∧
    (txWith [0x41, 0x42, 0x43] 0).sourceOpen = true ∧
    ((txWith [0x41, 0x42, 0x43] 0).setSourceOpen false).sourceOpen = false := by decide

theorem test_witness_TxStepResult :
    State.reset.tx.state = .idle ∧ (sending 7).tx.state = .emit ∧ (sending 7).sourceOpen = true ∧
    (sending 7).tx.idx.toNat < 65539 ∧ (sending 7).tx.frm.read? 7 = some 0x47 ∧
    (sending 7).tx.idx + 1 = (sending 7).tx.flen ∧ (sending 6).tx.idx + 1 ≠ (sending 6).tx.flen := by decide

/-- SEND of the empty payload, with two turns in which the sink is not ready. -/
theorem test_witness_SendEmitsTheBuiltFrame :
    let ready := [true, false, true, true, true, false, true]
    let s := State.reset.setAgenda (.host (.write 0 0x03) :: (ready.map Turn.tx ++ []))
    s.tx.state = .idle ∧ s.sourceOpen = true ∧ s.tx.plen.toNat ≤ 65534 ∧ (0x03 : HostWord).setWidth 8 = (0x03 : Byte) ∧
    ready.count true = s.tx.plen.toNat + 5 ∧ s.agenda = .host (.write 0 0x03) :: (ready.map Turn.tx ++ []) := by
  decide

theorem test_witness_ParseResult :
    (State.reset.rx.state = .idle ∧ State.reset.rx.accumulated = some []) ∧
    (let u : RxUnit := { idleRx with buf := Memory.writeList [] 0 [0x02, 0x00, 0x01, 0x03, 0x02, 0x55], cnt := 6 }
     u.state = .idle ∧ u.accumulated = some [0x02, 0x00, 0x01, 0x03, 0x02, 0x55]) := by decide

/-- The hypotheses of the statements about issuing READ and RECV: an idle RX unit, the source open or not. -/
theorem test_witness_ReadIssueResult :
    (waiting []).rx.state = .idle ∧ (waiting []).sourceOpen = true ∧
    ((waiting []).setSourceOpen false).rx.state = .idle ∧ ((waiting []).setSourceOpen false).sourceOpen = false := by
  decide

theorem test_witness_RecvIssueResult :
    State.reset.rx.state = .idle ∧ State.reset.sourceOpen = true ∧
    (State.reset.setSourceOpen false).rx.state = .idle ∧ (State.reset.setSourceOpen false).sourceOpen = false := by
  decide

theorem test_witness_IdleRxUnitDoesNothing : (waiting [.byte 0x02]).rx.state = .idle := rfl

/-- Both ends of RECV: `OK` after 5 turns, and an error. -/
theorem test_witness_RecvIsReadThenParse :
    (waiting []).rx.state = .idle ∧ (waiting []).sourceOpen = true ∧
    after (rxTurns 5 (hunting false false ([0x02, 0x00, 0x01, 0x03, 0x02].map SrcAnswer.byte)))
      (fun t => t.rx.result == .ok) = true ∧
    after (rxTurns 3 (hunting false false [.tick, .tick, .tick])) (fun t => t.rx.result == .timeout) = true := by decide

theorem test_witness_HuntStep :
    ∀ a ∈ [SrcAnswer.byte 0x02, .byte 0x55, .tick], ∀ strict : Bool,
      (hunting false strict [a]).rx.state = .hunt ∧ (hunting false strict [a]).sourceOpen = true ∧
      (hunting false strict [a]).incoming = a :: [] ∧ (hunting false strict [a]).rx.strict = strict := by decide

/-- The timer of a phase at 0 and above it. -/
theorem test_witness_timer :
    (hunting false false [.tick]).rx.tmr ≠ 0 ∧ (inHeader false [0x02] [.tick]).rx.tmr ≠ 0 ∧
    (inBody false [0x02, 0x00, 0x01, 0x03] 1 [.tick]).rx.tmr ≠ 0 ∧
    (readIssue false false RxUnit.reset).tmr = 0 := by decide

/-- The last header byte with a length that is not 0, and with length 0 and either checksum, for READ and RECV. -/
theorem test_witness_HeaderStep :
    (inHeader false [0x02] [.byte 0x00]).rx.state = .hdr ∧
    (storeByte 0x00 (inHeader false [0x02] [.byte 0x00]).rx).need ≠ 0 ∧
    (∀ recv : Bool,
      (storeByte 0x41 (inHeader recv [0x02, 0x00, 0x04] [.byte 0x41]).rx).need = 0 ∧
      (storeByte 0x41 (inHeader recv [0x02, 0x00, 0x04] [.byte 0x41]).rx).buf.read? 1 = some 0x00 ∧
      (storeByte 0x41 (inHeader recv [0x02, 0x00, 0x04] [.byte 0x41]).rx).buf.read? 2 = some 0x04 ∧
      (storeByte 0x00 (inHeader recv [0x02, 0x00, 0x00] [.byte 0x00]).rx).need = 0 ∧
      (storeByte 0x00 (inHeader recv [0x02, 0x00, 0x00] [.byte 0x00]).rx).buf.read? 1 = some 0x00 ∧
      (storeByte 0x00 (inHeader recv [0x02, 0x00, 0x00] [.byte 0x00]).rx).buf.read? 2 = some 0x00 ∧
      (storeByte 0x00 (inHeader recv [0x02, 0x00, 0x00] [.byte 0x00]).rx).lrc = 0x02 ∧
      (storeByte 0x01 (inHeader recv [0x02, 0x00, 0x00] [.byte 0x01]).rx).lrc ≠ 0x02 ∧
      (inHeader recv [0x02, 0x00, 0x00] []).rx.recv = recv ∧
      (inHeader recv [0x02, 0x00, 0x00] []).rx.cnt.toNat < 65539) := by decide

theorem test_witness_BodyStep :
    (storeByte 0x03 (inBody false [0x02, 0x00, 0x02, 0x41] 2 [.byte 0x03]).rx).need ≠ 0 ∧
    ∀ recv : Bool,
      (inBody recv [0x02, 0x00, 0x01, 0x03] 1 [.byte 0x02]).rx.state = .body ∧
      (inBody recv [0x02, 0x00, 0x01, 0x03] 1 [.byte 0x02]).sourceOpen = true ∧
      (inBody recv [0x02, 0x00, 0x01, 0x03] 1 [.byte 0x02]).rx.cnt.toNat < 65539 ∧
      (inBody recv [0x02, 0x00, 0x01, 0x03] 1 [.byte 0x02]).rx.recv = recv ∧
      (storeByte 0x02 (inBody recv [0x02, 0x00, 0x01, 0x03] 1 [.byte 0x02]).rx).need = 0 ∧
      (storeByte 0x02 (inBody recv [0x02, 0x00, 0x01, 0x03] 1 [.byte 0x02]).rx).lrc = 0x02 ∧
      (storeByte 0x00 (inBody recv [0x02, 0x00, 0x01, 0x03] 1 [.byte 0x00]).rx).lrc ≠ 0x02 := by decide

/-- An RX turn from each busy state of the invariant (above), and how it ends; the same states serve for
`StoredBytesStay`. -/
theorem test_witness_OneResultPerRead :
    after (perform .rx (hunting false true [.byte 0x55])) (fun t => t.rx.result == .start) = true ∧
    after (perform .rx (inHeader false [0x02, 0x00, 0x04] [.byte 0x41])) (fun t => t.rx.state == .body) = true ∧
    after (perform .rx (inBody false [0x02, 0x00, 0x01, 0x03] 1 [.byte 0x02])) (fun t => t.rx.result == .ok) = true := by
  decide

theorem test_witness_StoredBytesStay :
    (inHeader false [0x02, 0x00, 0x04] [.byte 0x41]).rx.state ≠ .idle ∧
    after (perform .rx (inHeader false [0x02, 0x00, 0x04] [.byte 0x41])) (fun t => t.rx.cnt == 4) = true ∧
    2 < (inHeader false [0x02, 0x00, 0x04] [.byte 0x41]).rx.cnt.toNat := by decide

/-- V12 ends, V4b does not. -/
theorem test_witness_ReadMatchesItsFunction :
    (waiting []).rx.state = .idle ∧ (waiting []).sourceOpen = true ∧
    readFunction 2 false 5 [.byte 0x02, .byte 0x00, .byte 0x00, .byte 0x00] =
      some ⟨.ok, [0x02, 0x00, 0x00, 0x00], []⟩ ∧
    readFunction 2 false 5 [.tick, .tick] = none := by decide

/-- The trace of 42_frame_reader.md R194, after its noise: "ABC" with a tick in either phase. -/
def abcAnswers : List SrcAnswer :=
  .byte 0x02 :: ([.tick, .byte 0x00, .byte 0x04, .byte 0x41] ++ [.tick, .byte 0x42, .byte 0x43, .byte 0x03, .byte 0x47])

theorem test_witness_DeliversFrame : DeliversFrame abcAnswers [0x02, 0x00, 0x04, 0x41, 0x42, 0x43, 0x03, 0x47] 5 :=
  ⟨_, _, rfl, ⟨by decide, by decide, .inr ⟨0x41, rfl⟩⟩, ⟨by decide, by decide, .inr ⟨0x47, rfl⟩⟩⟩

theorem test_witness_ResynchronisesOnNoise :
    let noise : List SrcAnswer := [.tick, .byte 0x55, .tick, .tick]
    let s := waiting (noise ++ (abcAnswers ++ []))
    s.rx.state = .idle ∧ s.sourceOpen = true ∧ AcceptedFrame [0x02, 0x00, 0x04, 0x41, 0x42, 0x43, 0x03, 0x47] ∧
    noiseWithin s.rx.regTidle.toNat 0 noise = true ∧ s.rx.regTframe.toNat = 5 ∧
    s.incoming = noise ++ (abcAnswers ++ []) := by decide

/-- As many ticks in a row as the idle timeout lets pass. -/
theorem test_witness_NoiseHoldsTheReader :
    let s := hunting false false ([.tick, .tick, .byte 0x55, .tick, .tick] ++ [])
    s.rx.state = .hunt ∧ s.rx.strict = false ∧ s.sourceOpen = true ∧ s.rx.tmr = s.rx.tidle ∧
    noiseWithin s.rx.tidle.toNat 0 [.tick, .tick, .byte 0x55, .tick, .tick] = true := by decide

/-- V4. -/
theorem test_witness_TimeoutAfterQuietLine :
    let s := waiting [.tick, .tick, .tick]
    s.rx.state = .idle ∧ s.sourceOpen = true ∧
    s.incoming = List.replicate (s.rx.regTidle.toNat + 1) SrcAnswer.tick ++ [] := by decide

/-- V19, its first two turns. -/
theorem test_witness_StrictStartOnCleanBoundary :
    let s := waiting [.byte 0x02, .byte 0x00]
    s.rx.state = .idle ∧ s.sourceOpen = true ∧ s.incoming = .byte 0x02 :: [.byte 0x00] ∧
    after (rxTurns 2 (hunting false true [.byte 0x02, .byte 0x00])) (fun t => t.rx.cnt == 2) = true := by decide

theorem test_witness_FrameInProgressEnds :
    ((inHeader false [0x02, 0x00, 0x04] [.byte 0x41]).Inv ∧
      (inHeader false [0x02, 0x00, 0x04] [.byte 0x41]).rx.state = .hdr) ∧
    ((inBody false [0x02, 0x00, 0x01, 0x03] 1 [.byte 0x02]).Inv ∧
      (inBody false [0x02, 0x00, 0x01, 0x03] 1 [.byte 0x02]).rx.state = .body) :=
  ⟨⟨test_witness_inv_hdr, rfl⟩, test_witness_inv_body, rfl⟩

/-- An idle unit before any answers satisfies the invariant. -/
theorem test_witness_inv_waiting (incoming : List SrcAnswer) : (waiting incoming).Inv := by
  refine ⟨⟨?_, ?_, ?_, ?_, ?_, ?_⟩, ⟨?_, ?_, ?_, ?_, ?_⟩, ⟨?_, ?_, ?_, ?_, ?_, ?_, ?_⟩, ⟨?_, ?_, ?_, ?_, ?_⟩, ?_⟩ <;>
    simp [waiting, idleRx, RxUnit.reset, State.reset, TxUnit.reset, RxUnit.accumulated, TxUnit.built,
      Memory.firstBytes?, Memory.wf, Memory.risingFrom, SourceOk]

/-- Noise and ticks before and inside an accepted sequence, taken whole by a non-strict READ, and the sequence alone by a
strict one (with `test_witness_inv_waiting` and `test_witness_DeliversFrame`). -/
theorem test_witness_AcceptedSetIsExact :
    (waiting (.byte 0x55 :: abcAnswers)).rx.state = .idle ∧ (waiting abcAnswers).sourceOpen = true ∧
    (waiting abcAnswers).rx.regTframe.toNat = 5 ∧
    AcceptedFrame [0x02, 0x00, 0x04, 0x41, 0x42, 0x43, 0x03, 0x47] ∧
    after (rxTurns 11 (hunting false false (.byte 0x55 :: abcAnswers)))
      (fun t => t.rx.result == .ok && t.incoming == []) = true ∧
    after (rxTurns 10 (hunting false true abcAnswers)) (fun t => t.rx.result == .ok) = true := by decide

/-- A READ and a RECV in HUNT; the longest and the empty payload. -/
theorem test_witness_FrameIsReceived :
    (hunting true false []).Inv ∧ (hunting true false []).rx.state = .hunt ∧
    (hunting true false []).rx.recv = true ∧ (hunting false false []).rx.recv = false ∧
    (List.replicate 65534 (0x55 : Byte)).length ≤ 65534 ∧ ([] : List Byte).length ≤ 65534 :=
  ⟨test_witness_inv_hunt true false (fun _ => rfl) [] [], rfl, rfl, rfl, by rw [List.length_replicate], by decide⟩

theorem test_witness_FrameAlwaysPasses :
    (waiting []).rx.state = .idle ∧ (inHeader false [0x02, 0x00, 0x04] [.byte 0x41]).Inv :=
  ⟨rfl, test_witness_inv_hdr⟩

theorem test_witness_StartByteByState :
    (hunting false false []).rx.state = .hunt ∧ (waiting []).rx.state = .idle ∧
    (inHeader false [0x02, 0x00, 0x04] []).rx.state = .hdr ∧
    (inBody false [0x02, 0x00, 0x01, 0x03] 1 []).rx.state = .body ∧
    (inBody false [0x02, 0x00, 0x01, 0x03] 1 []).rx.cnt.toNat < 65539 := by decide

/-- Both sides of the equivalence, on V12 (with `test_witness_inv_hunt`). -/
theorem test_witness_WireBurstIsRxSteps :
    (hunting false true []).rx.state = .hunt ∧ AcceptedFrame [0x02, 0x00, 0x00, 0x00] ∧
    after (wireBurst [0x02, 0x00, 0x00, 0x00] (hunting false true []))
      (fun t => t.rx.result == .ok && t.rx.accumulated == some [0x02, 0x00, 0x00, 0x00]) = true := by decide

/-- V10 with ticks inside: a payload byte changed; V11: the checksum byte changed. -/
theorem test_witness_SingleByteCorruptionIsDetected :
    let answers : List SrcAnswer :=
      .byte 0x02 :: ([.byte 0x00, .tick, .byte 0x04, .byte 0x41] ++
        [.tick, .byte 0x52, .byte 0x43, .byte 0x03, .byte 0x47])
    (hunting false false (answers ++ [])).Inv ∧ (hunting false false (answers ++ [])).rx.state = .hunt ∧
    (buildFrame [0x41, 0x42, 0x43])[4]? ≠ some 0x52 ∧ (buildFrame [0x41, 0x42, 0x43])[7]? ≠ some 0x46 ∧
    DeliversFrame answers ((buildFrame [0x41, 0x42, 0x43]).set 4 0x52)
      (hunting false false (answers ++ [])).rx.tframe.toNat :=
  ⟨test_witness_inv_hunt false false (fun h => by cases h) _ [], rfl, by decide, by decide,
    _, _, rfl, ⟨by decide, by decide, .inr ⟨0x41, rfl⟩⟩, ⟨by decide, by decide, .inr ⟨0x47, rfl⟩⟩⟩

theorem test_witness_FoldLaws :
    ([0x41, 0x42] : List Byte).Perm [0x42, 0x41] ∧ ([0x41, 0x42] : List Byte)[1]? = some 0x42 ∧
    (0x42 : Byte) ≠ 0x52 := by decide

theorem test_witness_SelfCheckForms :
    (([0x02, 0x00, 0x01, 0x03] : List Byte) ++ [0x02])[0]? = some 0x02 ∧
    fold ([0x02, 0x00, 0x01, 0x03] ++ [0x02]) 0x00 = 0x02 := by decide

/-- The length bound of the statements about `build`, at its boundary. -/
theorem test_witness_payload_bound :
    (List.replicate 65534 (0x55 : Byte)).length ≤ 65534 ∧ buildFrame [0x41] = buildFrame [0x41] :=
  ⟨by rw [List.length_replicate], rfl⟩

/-- The ends of the three windows, a written and an unwritten byte, and an index at and below the count. -/
theorem test_witness_WindowReads :
    (0x10000 : RegNo).toNat = 0x10000 + 0 ∧ (0x1FFFE : RegNo).toNat = 0x10000 + 65534 ∧
    (0x20000 : RegNo).toNat = 0x20000 + 0 ∧ (0x30002 : RegNo).toNat = 0x20000 + 65538 ∧
    (0x40000 : RegNo).toNat = 0x40000 + 0 ∧ (0x50002 : RegNo).toNat = 0x40000 + 65538 ∧
    (txWith [0x41] 0).tx.pay.read? 0 = some 0x41 ∧ (txWith [0x41] 0).tx.pay.read? 65534 = none ∧
    (7 < (sending 0).tx.flen.toNat ∧ (sending 0).tx.frm.read? 7 = some 0x47) ∧ (sending 0).tx.flen.toNat ≤ 8 ∧
    (2 < (inHeader false [0x02, 0x00, 0x04] []).rx.cnt.toNat ∧
      (inHeader false [0x02, 0x00, 0x04] []).rx.buf.read? 2 = some 0x04) ∧
    (inHeader false [0x02, 0x00, 0x04] []).rx.cnt.toNat ≤ 3 := by decide

/-- The ends of the reserved ranges. -/
theorem test_witness_ReservedNumbers :
    ∀ n ∈ [0x00007, 0x00010, 0x0FFFF, 0x1FFFF, 0x30003, 0x3FFFF, 0x50003, 0x7FFFF],
      (BitVec.ofNat 19 n).toNat = 0x00007 ∨
      (0x00010 ≤ (BitVec.ofNat 19 n).toNat ∧ (BitVec.ofNat 19 n).toNat ≤ 0x0FFFF) ∨
      (BitVec.ofNat 19 n).toNat = 0x1FFFF ∨
      (0x30003 ≤ (BitVec.ofNat 19 n).toNat ∧ (BitVec.ofNat 19 n).toNat ≤ 0x3FFFF) ∨
      (0x50003 ≤ (BitVec.ofNat 19 n).toNat ∧ (BitVec.ofNat 19 n).toNat ≤ 0x7FFFF) := by decide

theorem test_witness_HostReadsHaveNoSideEffect :
    hostTurn (.read 0x00008) State.reset = .next { State.reset with hostData := 0 } := rfl

/-- The ends of the read-only ranges and of the `TX_PAY` window. -/
theorem test_witness_HostWrites :
    State.reset.tx.state = .idle ∧ (0x1FFFE : RegNo).toNat = 0x10000 + 65534 ∧
    ∀ n ∈ [0x00001, 0x00004, 0x00006, 0x00008, 0x0000B, 0x0000F, 0x20000, 0x30002, 0x40000, 0x50002],
      (BitVec.ofNat 19 n).toNat = 0x00001 ∨
      (0x00004 ≤ (BitVec.ofNat 19 n).toNat ∧ (BitVec.ofNat 19 n).toNat ≤ 0x00006) ∨
      (BitVec.ofNat 19 n).toNat = 0x00008 ∨
      (0x0000B ≤ (BitVec.ofNat 19 n).toNat ∧ (BitVec.ofNat 19 n).toNat ≤ 0x0000F) ∨
      (0x20000 ≤ (BitVec.ofNat 19 n).toNat ∧ (BitVec.ofNat 19 n).toNat ≤ 0x20000 + 65538) ∨
      (0x40000 ≤ (BitVec.ofNat 19 n).toNat ∧ (BitVec.ofNat 19 n).toNat ≤ 0x40000 + 65538) := by decide

/-- X14: a READ in flight and its turn on a tick. -/
theorem test_witness_LatchedOperandsStand :
    (hunting false false [.tick]).rx.state ≠ .idle ∧
    after (perform .rx (hunting false false [.tick])) (fun t => t.rx.tmr == 1) = true := by decide

theorem test_witness_StepKeepsInvariant :
    ((hunting false false [.byte 0x02]).setAgenda [.rx]).Inv ∧
    after (step ((hunting false false [.byte 0x02]).setAgenda [.rx])) (fun t => t.rx.state == .hdr) = true :=
  ⟨test_witness_inv_hunt false false (fun h => by cases h) [.byte 0x02] [.rx], by decide⟩

/-- Two steps from reset: READ is issued and takes the start byte. -/
theorem test_witness_RuleR49InReachableStates :
    after (Host.Core.run core 2 ((State.reset.setAgenda [.host (.write 0 0x05), .rx]).setIncoming [.byte 0x02]))
      (fun t => t.rx.state == .hdr) = true := by decide

theorem test_witness_NoStepFaults : (inBody false [0x02, 0x00, 0x01, 0x03] 1 [.byte 0x02]).Inv :=
  test_witness_inv_body

/-- A READ and a SEND side by side (X9). -/
theorem test_witness_RxAndTxStepsCommute :
    let s := { hunting false false [.byte 0x02] with tx := (sending 0).tx }
    after (perform .rx s) (fun t => t.rx.state == .hdr) = true ∧
    after (perform (.tx true) s) (fun t => t.outgoing == [0x02]) = true := by decide

theorem test_witness_InstructionFrames :
    after (exec .build (txWith [0x41] 0)) (fun t => t.tx.flen == 6) = true ∧
    after (exec (.read true) (waiting [])) (fun t => t.rx.strict) = true ∧
    after (exec (.reservedCmd 7 0 0) State.reset) (fun t => t.tx.cmdErr) = true ∧
    after (exec .stxHunt (hunting false false [])) (fun t => t.rx.cnt == 1) = true := by decide

/-- X7 and X11: a command to a busy RX unit, a host write to a busy TX unit. -/
theorem test_witness_OperationsInFlightStand :
    after (perform (.host (.write 0 0x05)) (hunting false false [])) (fun t => t.rx.cmdErr) = true ∧
    after (perform (.host (.write 0x00002 7)) (sending 0)) (fun t => t.tx.cmdErr && t.tx.plen == 3) = true ∧
    (sending 0).tx.state = .emit ∧ (hunting false false []).rx.state ≠ .idle := by decide

theorem test_witness_OnlyTheTxStepEmits :
    after (step ((sending 0).setAgenda [.tx true])) (fun t => t.outgoing == [0x02]) = true := by decide

theorem test_witness_TheSourceIsReadInOrder :
    after (step ((hunting false false [.byte 0x02, .tick]).setAgenda [.rx])) (fun t => t.incoming == [.tick]) = true ∧
    (takeTurn ((hunting false false [.byte 0x02, .tick]).setAgenda [.rx])).1 = .rx ∧
    after (step ((waiting [.byte 0x02]).setAgenda [.rx])) (fun t => t.incoming == [.byte 0x02]) = true := by decide

theorem test_witness_SourceFailureIsRefused :
    (hunting false false []).rx.state ≠ .idle ∧ (sending 0).tx.state ≠ .idle ∧
    ((hunting false false []).setSourceOpen false).sourceOpen = false ∧
    ((sending 0).setSourceOpen false).sourceOpen = false ∧
    (State.reset.setSourceOpen false).rx.state = .idle ∧ (State.reset.setSourceOpen false).tx.state = .idle ∧
    (State.reset.setSourceOpen false).tx.plen.toNat ≤ 65534 ∧
    (State.reset.setSourceOpen false).sourceOpen = false := by decide

theorem test_witness_SourceIsTheCollaborators :
    after (step (State.reset.setAgenda [.source .lost])) (fun t => t.sourceOpen == false) = true ∧
    after (step ((State.reset.setSourceOpen false).setAgenda [.source .opened])) (fun t => t.sourceOpen) = true := by
  decide

end Sys2Proof.Tests
end

section
/-! The moves of the two units: everything one turn can do to the registers of the RX unit and of the TX unit, with the
guards under which it does it. An invariant of a unit needs one proof for each move and none about turns. -/

namespace Sys2Proof.Machine

open Relation (ReflGen ReflTransGen)

/-- What can happen at once to an RX unit with registers `u`, in reset epoch `epoch` and with the source open or not. -/
inductive RxMove (epoch : Nat) (isOpen : Bool) (u : RxUnit) : RxUnit → Prop
  /-- A command is rejected (10_state.md R31). -/
  | reject : RxMove epoch isOpen u u.reject
  /-- The host writes its timeout registers (10_state.md R43). -/
  | timeouts (tidle tframe : Ticks) : RxMove epoch isOpen u { u with regTidle := tidle, regTframe := tframe }
  /-- PARSE (41_frame_build_parse.md R147). -/
  | parse (idle : u.state = .idle) : RxMove epoch isOpen u (payloadView u.accept)
  /-- READ or RECV is issued (42_frame_reader.md R171, R186). -/
  | issue (recv strict : Bool) (idle : u.state = .idle) (source : isOpen = true)
      (operand : recv = true → strict = false) : RxMove epoch isOpen u (readIssue recv strict u.accept)
  /-- A busy unit takes one answer of the source (42_frame_reader.md R184). -/
  | answer (a : SrcAnswer) (busy : u.state ≠ .idle) (source : isOpen = true)
      (room : ∀ b, a = .byte b → u.state ≠ .hunt → u.cnt.toNat < Config.rxBufSize) :
      RxMove epoch isOpen u (rxOn epoch a u)
  /-- The reset step (10_state.md R50). -/
  | reset : RxMove epoch isOpen u RxUnit.reset

/-- What can happen at once to a TX unit with registers `u`, in reset epoch `epoch` and with the source open or not. -/
inductive TxMove (epoch : Nat) (isOpen : Bool) (u : TxUnit) : TxUnit → Prop
  /-- A command or an operand write is rejected (10_state.md R34, R36). -/
  | reject : TxMove epoch isOpen u u.reject
  /-- The host writes `TX_PLEN` (10_state.md R34). -/
  | setPlen (v : Half) (idle : u.state = .idle) : TxMove epoch isOpen u { u with plen := v }
  /-- The host writes `TX_SEED` (10_state.md R34). -/
  | setSeed (v : Byte) (idle : u.state = .idle) : TxMove epoch isOpen u { u with seed := v }
  /-- The host writes a byte of `TX_PAY` (10_state.md R34). -/
  | setPay (i : Nat) (v : Byte) (idle : u.state = .idle) (room : i < Config.txPaySize) :
      TxMove epoch isOpen u { u with pay := u.pay.write i v }
  /-- CHECKSUM (40_checksum.md R121). -/
  | checksum (idle : u.state = .idle) : TxMove epoch isOpen u (checksumIssue epoch u.accept)
  /-- BUILD (41_frame_build_parse.md R141, R142). -/
  | build (idle : u.state = .idle) : TxMove epoch isOpen u (buildIssue epoch u.accept)
  /-- SEND is issued (41_frame_build_parse.md R142, R143). -/
  | send (idle : u.state = .idle) (source : tooLong u = false → isOpen = true) :
      TxMove epoch isOpen u (sendIssue epoch u.accept)
  /-- One byte of a SEND has been emitted (41_frame_build_parse.md R144). -/
  | emit (busy : u.state = .emit) (source : isOpen = true) (room : u.idx.toNat < Config.txFrmSize) :
      TxMove epoch isOpen u (txAdvance u)
  /-- The reset step (10_state.md R50). -/
  | reset : TxMove epoch isOpen u TxUnit.reset

/-- From `s` to `t` the units have made moves only: the TX unit at most one, the RX unit several where a burst passes on
the wire. -/
structure Moves (s t : State) : Prop where
  rx : ReflTransGen (RxMove s.epoch s.sourceOpen) s.rx t.rx
  tx : ReflGen (TxMove s.epoch s.sourceOpen) s.tx t.tx

variable {s t : State}

theorem Moves.of_units_eq (hrx : t.rx = s.rx) (htx : t.tx = s.tx) : Moves s t :=
  ⟨hrx ▸ .refl, htx ▸ .refl⟩

theorem Moves.setRx {u : RxUnit} (h : RxMove s.epoch s.sourceOpen s.rx u) : Moves s (s.setRx u) :=
  ⟨.single h, .refl⟩

theorem Moves.setTx {u : TxUnit} (h : TxMove s.epoch s.sourceOpen s.tx u) : Moves s (s.setTx u) :=
  ⟨.refl, .single h⟩

/-! Commands. -/

theorem rxCommand_moves {issue : RxUnit → RxUnit} (h : rxCommand issue s = .next t)
    (hi : s.rx.state = .idle → RxMove s.epoch s.sourceOpen s.rx (issue s.rx.accept)) : Moves s t := by
  obtain ⟨-, hr⟩ | ⟨idle, hr⟩ := rxCommand_cases issue s <;> rw [hr] at h <;> cases h
  · exact .setRx .reject
  · exact .setRx (hi idle)

theorem txCommand_moves {issue : TxUnit → TxUnit} (h : txCommand issue s = .next t)
    (hi : s.tx.state = .idle → TxMove s.epoch s.sourceOpen s.tx (issue s.tx.accept)) : Moves s t := by
  obtain ⟨-, hr⟩ | ⟨idle, hr⟩ := txCommand_cases issue s <;> rw [hr] at h <;> cases h
  · exact .setTx .reject
  · exact .setTx (hi idle)

theorem flagReserved_moves (op : BitVec 3) (s : State) : Moves s (flagReserved op s) where
  rx := by
    cases h : reservedFlagsRx op <;> simp only [flagReserved, h, State.setTx_rx, State.setRx_rx]
    · exact .refl
    · exact .single .reject
  tx := by
    cases h : reservedFlagsTx op <;> simp only [flagReserved, h, State.setTx_tx]
    · exact .refl
    · exact .single .reject

/-! The RX unit's turns. -/

/-- `t` comes from `s` by turns of the RX unit alone. -/
structure RxRun (s t : State) : Prop where
  rx : ReflTransGen (RxMove s.epoch s.sourceOpen) s.rx t.rx
  tx : t.tx = s.tx
  epoch : t.epoch = s.epoch
  sourceOpen : t.sourceOpen = s.sourceOpen

theorem RxRun.moves (h : RxRun s t) : Moves s t := ⟨h.rx, h.tx ▸ .refl⟩

theorem rxTurn_moves (h : rxTurn s = .next t) : ReflTransGen (RxMove s.epoch s.sourceOpen) s.rx t.rx := by
  obtain ⟨-, rfl⟩ | ⟨busy, source, rfl, room⟩ := rxTurn_cases h
  · exact .refl
  · exact .single (.answer _ busy source room)

theorem rxTurns_run {n : Nat} (h : rxTurns n s = .next t) : RxRun s t := by
  refine rxTurns_induct (p := RxRun s) (fun m m' hm hr => ?_) ⟨.refl, rfl, rfl, rfl⟩ h
  obtain ⟨l, k, hframe, -⟩ := rxTurn_frame hr
  have hmoves := rxTurn_moves hr
  rw [hm.epoch, hm.sourceOpen] at hmoves
  rw [hframe]
  exact ⟨hm.rx.trans hmoves, hm.tx, hm.epoch, hm.sourceOpen⟩

theorem wireBurst_moves {bytes : List Byte} (h : wireBurst bytes s = .next t) : Moves s t :=
  have hm := (rxTurns_run h).moves
  ⟨hm.rx, hm.tx⟩

/-! The turns. -/

theorem exec_moves {i : Instr} (h : exec i s = .next t) : Moves s t := by
  cases i with
  | nop => cases h; exact .of_units_eq rfl rfl
  | checksum => exact txCommand_moves h fun idle => .checksum idle
  | build => exact txCommand_moves h fun idle => .build idle
  | send =>
    obtain ⟨source, h⟩ := execSend_eq_next.1 h
    exact txCommand_moves h fun idle => .send idle (source idle)
  | parse => exact rxCommand_moves h fun idle => .parse idle
  | read strict =>
    obtain ⟨source, h⟩ := execRead_eq_next.1 h
    exact rxCommand_moves h fun idle => .issue false strict idle (source idle) nofun
  | recv =>
    obtain ⟨source, h⟩ := execRecv_eq_next.1 h
    exact rxCommand_moves h fun idle => .issue true false idle (source idle) fun _ => rfl
  | reservedCmd op strict zero => cases h; exact flagReserved_moves op s
  | frame payload => exact wireBurst_moves h
  | stxHunt => exact wireBurst_moves h

theorem issueCommand_moves {w : Byte} (h : issueCommand w s = .next t) : Moves s t := exec_moves h

theorem runWire_moves {bytes : List Byte} (h : runWire bytes s = .next t) : Moves s t := by
  unfold runWire at h
  split at h
  · exact exec_moves h
  · exact wireBurst_moves h

theorem writeTxOperand_moves (write : TxUnit → TxUnit) (s : State)
    (hw : s.tx.state = .idle → TxMove s.epoch s.sourceOpen s.tx (write s.tx)) : Moves s (writeTxOperand write s) := by
  unfold writeTxOperand
  split
  next => exact .setTx .reject
  next hb => exact .setTx (hw ((TxUnit.busy_eq_false _).1 (Bool.eq_false_iff.2 hb)))

theorem writeReg_moves (r : Reg) (v : HostWord) (s : State) (hr : ∀ i, r = .txPay i → i < Config.txPaySize) :
    Moves s (writeReg r v s) := by
  cases r
  case txPlen => exact writeTxOperand_moves (fun u => { u with plen := v.setWidth 16 }) s (.setPlen _)
  case txSeed => exact writeTxOperand_moves (fun u => { u with seed := v.setWidth 8 }) s (.setSeed _)
  case txPay i =>
    exact writeTxOperand_moves (fun u => { u with pay := u.pay.write i (v.setWidth 8) }) s (.setPay i _ · (hr i rfl))
  case rxTidle => exact .setRx (.timeouts v s.rx.regTframe)
  case rxTframe => exact .setRx (.timeouts s.rx.regTidle v)
  all_goals exact .of_units_eq rfl rfl

theorem hostTurn_moves {access : HostAccess} (h : hostTurn access s = .next t) : Moves s t := by
  cases access with
  | read r =>
    obtain ⟨v, -, rfl⟩ := hostRead_cases h
    exact .of_units_eq rfl rfl
  | write r v =>
    unfold hostTurn at h
    dsimp only at h
    split at h
    · exact issueCommand_moves h
    · cases h
      exact writeReg_moves _ v s fun i => regOf_eq_txPay

/-- One turn of any agent makes moves of the units only. -/
theorem perform_moves {turn : Turn} (h : perform turn s = .next t) : Moves s t := by
  cases turn with
  | host access => exact hostTurn_moves h
  | rx => exact (rxTurns_run (rxTurns_succ 0 h)).moves
  | tx ready =>
    obtain ⟨-, rfl⟩ | ⟨busy, -, source, room, rfl⟩ := txTurn_cases h
    · exact .of_units_eq rfl rfl
    · exact ⟨.refl, .single (.emit busy source room)⟩
  | wire bytes => exact runWire_moves h
  | source event =>
    obtain ⟨rfl, -⟩ := sourceTurn_cases h
    exact .of_units_eq rfl rfl
  | reset => cases h; exact ⟨.single .reset, .single .reset⟩

/-- One step of the machine makes moves of the units only. -/
theorem step_moves (h : step s = .next t) : Moves s t := by
  obtain ⟨l, n, ht⟩ := takeTurn_frame s
  have hm : Moves (takeTurn s).2 t := perform_moves h
  rw [ht] at hm
  exact ⟨hm.rx, hm.tx⟩

end Sys2Proof.Machine
end

section
/-! Rule R49 (10_state.md): every move of a unit keeps its six clauses. -/

namespace Sys2Proof.Machine

open Relation (ReflTransGen)

/-! The accumulated bytes and their running XOR. -/

theorem fold_append_singleton (bytes : List Byte) (b seed : Byte) : fold (bytes ++ [b]) seed = fold bytes seed ^^^ b := by
  simp [fold]

/-- `rx_lrc` is the XOR of the bytes accumulated so far (10_state.md R29), the second half of clause (d) of R49. -/
def RxUnit.LrcOk (u : RxUnit) : Prop := ∃ bytes, u.accumulated = some bytes ∧ u.lrc = fold bytes 0x00

theorem storeByte_lrcOk {u : RxUnit} (b : Byte) (h : u.LrcOk) (room : u.cnt.toNat < Config.rxBufSize) :
    (storeByte b u).LrcOk := by
  obtain ⟨bytes, hacc, hlrc⟩ := h
  exact ⟨bytes ++ [b], storeByte_accumulated b hacc room, by rw [fold_append_singleton, ← hlrc]; rfl⟩

/-- A stored byte leaves the bytes below the count as they are. -/
theorem storeByte_read_below {u : RxUnit} (b : Byte) {i : Nat} (h : i < u.cnt.toNat) :
    (storeByte b u).buf.read? i = u.buf.read? i :=
  Memory.read?_write_ne u.buf b (by omega)

theorem huntStart_lrcOk (u : RxUnit) : (huntStart u).LrcOk :=
  ⟨[stx], Memory.firstBytes?_write_succ (m := u.buf) (n := 0) (bytes := []) rfl stx, rfl⟩

/-- Every index below the count holds a byte. -/
theorem RxUnit.LrcOk.read_below {u : RxUnit} (h : u.LrcOk) {i : Nat} (hi : i < u.cnt.toNat) :
    ∃ b, u.buf.read? i = some b := by
  obtain ⟨bytes, hacc, -⟩ := h
  obtain ⟨hlen, hread⟩ := (Memory.firstBytes?_eq_some_iff _ _ _).1 hacc
  exact ⟨bytes[i], by rw [hread i hi, List.getElem?_eq_getElem]⟩

theorem lengthField_lt (hi lo : Byte) : lengthField hi lo < 2 ^ 16 := by
  have h1 := hi.isLt
  have h2 := lo.isLt
  unfold lengthField
  omega

/-! The RX unit's moves. -/

variable {s t : State}

/-- An RX unit that is idle satisfies R49 if it ended with another result than `OK`, or with a whole valid frame. -/
theorem RuleR49.setRx_of_idle {u : RxUnit} (h : RuleR49 s) (idle : u.state = .idle)
    (ok : u.result = .ok → u.cnt.toNat = u.len.toNat + 4 ∧ u.buf.read? 0 = some 0x02 ∧
      ∃ bytes, u.accumulated = some bytes ∧ fold bytes 0x00 = 0x02) : RuleR49 (s.setRx u) where
  hunt hs := nomatch idle.symm.trans hs
  hdr hs := nomatch idle.symm.trans hs
  body hs := nomatch idle.symm.trans hs
  busy hs := absurd idle hs
  ok := ok
  emit := h.emit

/-- In HUNT the count, the checksum and the result are those of the issue rule (42_frame_reader.md R171). -/
theorem RuleR49.setRx_of_hunt {u : RxUnit} (h : RuleR49 s) (hunt : u.state = .hunt) (hcnt : u.cnt = 0)
    (hres : u.result = .none) (hlrc : u.LrcOk) : RuleR49 (s.setRx u) where
  hunt _ := hcnt
  hdr hs := nomatch hunt.symm.trans hs
  body hs := nomatch hunt.symm.trans hs
  busy _ := ⟨hres, hlrc⟩
  ok hr := nomatch hres.symm.trans hr
  emit := h.emit

theorem RuleR49.setRx_of_hdr {u : RxUnit} (h : RuleR49 s) (hdr : u.state = .hdr)
    (phase : 1 ≤ u.cnt.toNat ∧ u.cnt.toNat ≤ 3 ∧ u.need.toNat = 4 - u.cnt.toNat ∧ u.buf.read? 0 = some stx)
    (hres : u.result = .none) (hlrc : u.LrcOk) : RuleR49 (s.setRx u) where
  hunt hs := nomatch hdr.symm.trans hs
  hdr _ := phase
  body hs := nomatch hdr.symm.trans hs
  busy _ := ⟨hres, hlrc⟩
  ok hr := nomatch hres.symm.trans hr
  emit := h.emit

theorem RuleR49.setRx_of_body {u : RxUnit} (h : RuleR49 s) (body : u.state = .body)
    (phase : 1 ≤ u.len.toNat ∧ 4 ≤ u.cnt.toNat ∧ u.cnt.toNat ≤ u.len.toNat + 3 ∧
      u.need.toNat = u.len.toNat + 4 - u.cnt.toNat ∧ u.buf.read? 0 = some stx ∧
      ∃ hi lo, u.buf.read? 1 = some hi ∧ u.buf.read? 2 = some lo ∧ u.len.toNat = hi.toNat * 256 + lo.toNat)
    (hres : u.result = .none) (hlrc : u.LrcOk) : RuleR49 (s.setRx u) where
  hunt hs := nomatch body.symm.trans hs
  hdr hs := nomatch body.symm.trans hs
  body _ := phase
  busy _ := ⟨hres, hlrc⟩
  ok hr := nomatch hres.symm.trans hr
  emit := h.emit

/-- `validate` of a frame as long as its length field says ends within R49 (42_frame_reader.md R181). -/
theorem RuleR49.setRx_validate {u : RxUnit} (h : RuleR49 s) (hcnt : u.cnt.toNat = u.len.toNat + 4)
    (hstx : u.buf.read? 0 = some stx) (hlrc : u.LrcOk) : RuleR49 (s.setRx (validate u)) := by
  obtain ⟨bytes, hacc, hfold⟩ := hlrc
  have hok : u.lrc = lrcSeed → ∃ bytes, u.accumulated = some bytes ∧ fold bytes 0x00 = 0x02 := fun hl =>
    ⟨bytes, hacc, hfold.symm.trans hl⟩
  obtain ⟨hl, -, hv⟩ | ⟨hl, -, hv⟩ | ⟨-, hv⟩ := validate_cases u <;> rw [hv]
  · exact h.setRx_of_idle rfl fun _ => ⟨hcnt, hstx, hok hl⟩
  · exact h.setRx_of_idle rfl fun _ => ⟨hcnt, hstx, hok hl⟩
  · exact h.setRx_of_idle rfl nofun

/-- The end of the header keeps R49 (42_frame_reader.md R177). -/
theorem RuleR49.setRx_headerComplete {u : RxUnit} (epoch : Nat) (h : RuleR49 s) (hcnt : u.cnt.toNat = 4)
    (hstx : u.buf.read? 0 = some stx) (hres : u.result = .none) (hlrc : u.LrcOk) :
    RuleR49 (s.setRx (headerComplete epoch u)) := by
  obtain ⟨hn, hv⟩ | ⟨hn, hv⟩ := headerComplete_cases epoch u <;> rw [hv]
  · exact h.setRx_validate (u := { u with len := 0 }) hcnt hstx hlrc
  · obtain ⟨hi, hhi⟩ := hlrc.read_below (i := 1) (by omega)
    obtain ⟨lo, hlo⟩ := hlrc.read_below (i := 2) (by omega)
    have hdecl : declaredLength epoch u = lengthField hi lo := by simp [declaredLength, RxUnit.bufByte, hhi, hlo]
    have hlt := lengthField_lt hi lo
    have hlen : (BitVec.ofNat 16 (declaredLength epoch u)).toNat = lengthField hi lo := by
      rw [hdecl, BitVec.toNat_ofNat, Nat.mod_eq_of_lt hlt]
    refine h.setRx_of_body rfl ⟨?_, ?_, ?_, ?_, hstx, hi, lo, hhi, hlo, hlen⟩ hres hlrc <;> dsimp only <;> omega

/-- A tick in a busy phase keeps R49: it ends the READ with an error or counts the timer down. -/
theorem RuleR49.setRx_countTick {kind : RxResult} (h : RuleR49 s) (hkind : kind ≠ .ok) :
    RuleR49 (s.setRx (countTick kind s.rx)) := by
  obtain ⟨-, hc⟩ | ⟨-, hc, -⟩ := countTick_cases kind s.rx <;> rw [hc]
  · exact h.setRx_of_idle rfl fun hr => absurd hr hkind
  · exact ⟨h.hunt, h.hdr, h.body, h.busy, h.ok, h.emit⟩

/-- A byte in HUNT keeps R49 (42_frame_reader.md R172 to R174). -/
theorem RuleR49.setRx_huntByte (epoch : Nat) (b : Byte) (h : RuleR49 s) (hunt : s.rx.state = .hunt) :
    RuleR49 (s.setRx (rxOnByte epoch b s.rx)) := by
  rw [rxOnByte_hunt epoch b hunt]
  split
  · exact h.setRx_of_hdr rfl (by simp [huntStart]) (h.busy (by simp [hunt])).1 (huntStart_lrcOk _)
  · split
    · exact h.setRx_of_idle rfl nofun
    · exact ⟨h.hunt, h.hdr, h.body, h.busy, h.ok, h.emit⟩

/-- A byte of the header keeps R49 (42_frame_reader.md R176, R177). -/
theorem RuleR49.setRx_hdrByte (epoch : Nat) (b : Byte) (h : RuleR49 s) (hdr : s.rx.state = .hdr) :
    RuleR49 (s.setRx (rxOnByte epoch b s.rx)) := by
  obtain ⟨hlo, hhi, hneed, hstx⟩ := h.hdr hdr
  obtain ⟨hres, hlrc⟩ := h.busy (by simp [hdr])
  have room : s.rx.cnt.toNat < Config.rxBufSize := by simp [Config.rxBufSize]; omega
  have hcnt' := storeByte_cnt b room
  have hneed' := storeByte_need b (u := s.rx) (by omega)
  have hstx' := (storeByte_read_below b (i := 0) (by omega)).trans hstx
  have hlrc' := storeByte_lrcOk b hlrc room
  rw [rxOnByte_hdr epoch b hdr]
  split
  next hz =>
    have hz' : (storeByte b s.rx).need.toNat = 0 := by simp [hz]
    exact h.setRx_headerComplete epoch (by omega) hstx' hres hlrc'
  next hz =>
    have hz' : (storeByte b s.rx).need.toNat ≠ 0 := fun e => hz (BitVec.eq_of_toNat_eq e)
    exact h.setRx_of_hdr hdr ⟨by omega, by omega, by omega, hstx'⟩ hres hlrc'

/-- A byte of the body keeps R49 (42_frame_reader.md R179, R181). -/
theorem RuleR49.setRx_bodyByte (epoch : Nat) (b : Byte) (h : RuleR49 s) (body : s.rx.state = .body)
    (room : s.rx.cnt.toNat < Config.rxBufSize) : RuleR49 (s.setRx (rxOnByte epoch b s.rx)) := by
  obtain ⟨hlen, hcnt, hmax, hneed, hstx, hi, lo, hhi, hlo, hfield⟩ := h.body body
  obtain ⟨hres, hlrc⟩ := h.busy (by simp [body])
  have hcnt' := storeByte_cnt b room
  have hneed' := storeByte_need b (u := s.rx) (by omega)
  have hread {i : Nat} (h4 : i < 4) : (storeByte b s.rx).buf.read? i = s.rx.buf.read? i :=
    storeByte_read_below b (by omega)
  have hstx' := (hread (i := 0) (by omega)).trans hstx
  have hlrc' := storeByte_lrcOk b hlrc room
  have hlen' : (storeByte b s.rx).len = s.rx.len := rfl
  rw [rxOnByte_body epoch b body]
  split
  next hz =>
    have hz' : (storeByte b s.rx).need.toNat = 0 := by simp [hz]
    exact h.setRx_validate (by rw [hlen']; omega) hstx' hlrc'
  next hz =>
    have hz' : (storeByte b s.rx).need.toNat ≠ 0 := fun e => hz (BitVec.eq_of_toNat_eq e)
    exact h.setRx_of_body body ⟨hlen, by omega, by rw [hlen']; omega, by rw [hlen']; omega, hstx', hi, lo,
      (hread (by omega)).trans hhi, (hread (by omega)).trans hlo, hfield⟩ hres hlrc'

/-- An answer of the source keeps R49. -/
theorem RuleR49.setRx_answer (epoch : Nat) (a : SrcAnswer) (h : RuleR49 s) (busy : s.rx.state ≠ .idle)
    (room : ∀ b, a = .byte b → s.rx.state ≠ .hunt → s.rx.cnt.toNat < Config.rxBufSize) :
    RuleR49 (s.setRx (rxOn epoch a s.rx)) := by
  cases a with
  | tick =>
    unfold rxOn
    cases hs : s.rx.state with
    | idle => exact absurd hs busy
    | hunt => rw [rxOnTick_hunt hs]; exact h.setRx_countTick nofun
    | hdr => rw [rxOnTick_hdr hs]; exact h.setRx_countTick nofun
    | body => rw [rxOnTick_body hs]; exact h.setRx_countTick nofun
  | byte b =>
    cases hs : s.rx.state with
    | idle => exact absurd hs busy
    | hunt => exact h.setRx_huntByte epoch b hs
    | hdr => exact h.setRx_hdrByte epoch b hs
    | body => exact h.setRx_bodyByte epoch b hs (room b rfl (by simp [hs]))

/-- Every move of the RX unit keeps R49. -/
theorem RuleR49.setRx {epoch : Nat} {isOpen : Bool} {u : RxUnit} (h : RuleR49 s) (m : RxMove epoch isOpen s.rx u) :
    RuleR49 (s.setRx u) := by
  cases m with
  | reject => exact ⟨h.hunt, h.hdr, h.body, h.busy, h.ok, h.emit⟩
  | timeouts => exact ⟨h.hunt, h.hdr, h.body, h.busy, h.ok, h.emit⟩
  | parse => exact ⟨h.hunt, h.hdr, h.body, h.busy, h.ok, h.emit⟩
  | issue => exact h.setRx_of_hunt rfl rfl rfl ⟨[], rfl, rfl⟩
  | answer a busy _ room => exact h.setRx_answer epoch a busy room
  | reset => exact h.setRx_of_idle rfl nofun

/-! The TX unit's moves. -/

/-- Clause (f) of R49 (10_state.md): what a SEND in flight keeps of its frame. -/
def TxUnit.EmitOk (u : TxUnit) : Prop :=
  u.state = .emit → u.idx.toNat < u.flen.toNat ∧ u.flen.toNat = u.plen.toNat + 5 ∧ u.result = .none

theorem TxUnit.EmitOk.of_idle {u : TxUnit} (idle : u.state = .idle) : u.EmitOk := fun hs => nomatch idle.symm.trans hs

/-- The frame's length does not wrap (41_frame_build_parse.md R141). -/
theorem loadFrame_flen (epoch : Nat) (u : TxUnit) : (loadFrame epoch u).flen.toNat = u.plen.toNat + 5 := by
  have h := u.plen.isLt
  simp only [loadFrame, BitVec.toNat_add, BitVec.toNat_setWidth]
  simp
  omega

theorem buildIssue_state {u : TxUnit} (epoch : Nat) (idle : u.state = .idle) : (buildIssue epoch u).state = .idle := by
  unfold buildIssue
  split
  · rfl
  · exact idle

theorem sendIssue_emitOk (epoch : Nat) (u : TxUnit) : (sendIssue epoch u).EmitOk := by
  unfold sendIssue
  split
  · exact .of_idle rfl
  · have hflen := loadFrame_flen epoch u
    have hpos : 0 < (loadFrame epoch u).flen.toNat := by omega
    exact fun _ => ⟨hpos, hflen, rfl⟩

theorem txAdvance_emitOk {u : TxUnit} (busy : u.state = .emit) (h : u.EmitOk) : (txAdvance u).EmitOk := by
  obtain ⟨hidx, hflen, hres⟩ := h busy
  unfold txAdvance
  split
  · exact .of_idle rfl
  next hne =>
    have hplen := u.plen.isLt
    have hnext : (u.idx + 1).toNat = u.idx.toNat + 1 := by
      rw [BitVec.toNat_add]
      simp
      omega
    have hlast : (u.idx + 1).toNat ≠ u.flen.toNat := fun e => hne (BitVec.eq_of_toNat_eq e)
    have hlt : (u.idx + 1).toNat < u.flen.toNat := by omega
    exact fun _ => ⟨hlt, hflen, hres⟩

/-- Every move of the TX unit keeps clause (f). -/
theorem TxMove.keeps_emitOk {epoch : Nat} {isOpen : Bool} {u u' : TxUnit} (m : TxMove epoch isOpen u u')
    (h : u.EmitOk) : u'.EmitOk := by
  cases m with
  | reject => exact h
  | setPlen _ idle => exact .of_idle idle
  | setSeed _ idle => exact .of_idle idle
  | setPay _ _ idle => exact .of_idle idle
  | checksum idle => exact .of_idle idle
  | build idle => exact .of_idle (buildIssue_state epoch idle)
  | send => exact sendIssue_emitOk epoch _
  | emit busy => exact txAdvance_emitOk busy h
  | reset => exact .of_idle rfl

/-! Runs. -/

theorem RuleR49.setRx_of_moves {epoch : Nat} {isOpen : Bool} {u : RxUnit} (h : RuleR49 s)
    (m : ReflTransGen (RxMove epoch isOpen) s.rx u) : RuleR49 (s.setRx u) := by
  induction m with
  | refl => exact h
  | tail _ hm ih => exact ih.setRx hm

/-- Any moves of the units keep R49. -/
theorem Moves.keeps_ruleR49 (m : Moves s t) (h : RuleR49 s) : RuleR49 t := by
  have hrx : RuleR49 (s.setRx t.rx) := h.setRx_of_moves m.rx
  obtain htx | hm := (Relation.reflGen_iff _ _ _).1 m.tx
  · exact ⟨hrx.hunt, hrx.hdr, hrx.body, hrx.busy, hrx.ok, htx ▸ hrx.emit⟩
  · exact ⟨hrx.hunt, hrx.hdr, hrx.body, hrx.busy, hrx.ok, hm.keeps_emitOk hrx.emit⟩

theorem ruleR49_of_units_reset (hrx : s.rx = RxUnit.reset) (htx : s.tx = TxUnit.reset) : RuleR49 s := by
  constructor <;> simp [hrx, htx, RxUnit.reset, TxUnit.reset]

theorem run_succ_eq_next {n : Nat} (h : Host.Core.run core (n + 1) s = .next t) :
    ∃ m : State, step s = .next m ∧ Host.Core.run core n m = .next t := by
  simp only [Host.Core.run] at h
  split at h
  next m hm => exact ⟨m, hm, h⟩
  · cases h
  · cases h

/-- What every step keeps, a run keeps. -/
theorem run_induct {p : State → Prop} (hp : ∀ s t, p s → step s = .next t → p t) {n : Nat} (hs : p s)
    (h : Host.Core.run core n s = .next t) : p t := by
  induction n generalizing s with
  | zero => cases h; exact hs
  | succ n ih =>
    obtain ⟨m, hstep, hrun⟩ := run_succ_eq_next h
    exact ih (hp s m hs hstep) hrun

end Sys2Proof.Machine
end
section
/-! The obligations on the state's rules (10_state.md R46, R49, R50). -/

namespace Sys2Proof.Machine

theorem regOf_reserved {r : RegNo}
    (h : r.toNat = 0x00007 ∨ (0x00010 ≤ r.toNat ∧ r.toNat ≤ 0x0FFFF) ∨ r.toNat = 0x1FFFF ∨
      (0x30003 ≤ r.toNat ∧ r.toNat ≤ 0x3FFFF) ∨ (0x50003 ≤ r.toNat ∧ r.toNat ≤ 0x7FFFF)) : regOf r = .reserved := by
  by_cases hlow : r.toNat < 0x10000
  · rw [regOf_scalar hlow]
    obtain hres | ⟨hle, hne, -⟩ := scalarReg_cases r.toNat
    · exact hres
    · omega
  · have hpay : txPayBase = 0x10000 ∧ Config.txPaySize = 65535 := by decide
    have hfrm : txFrmBase = 0x20000 ∧ Config.txFrmSize = 65539 := by decide
    have hbuf : rxBufBase = 0x40000 ∧ Config.rxBufSize = 65539 := by decide
    unfold regOf
    rw [if_neg (by omega), if_neg (by omega), if_neg (by omega), if_neg (by omega)]

/-- Settles O51: R49 holds at reset and every step keeps it. -/
theorem ruleR49InReachableStates : Obligations.RuleR49InReachableStates := by
  intro agenda incoming n t h
  exact run_induct (fun _ _ hs hstep => (step_moves hstep).keeps_ruleR49 hs) (ruleR49_of_units_reset rfl rfl) h

/-- Settles O45: the number names no register, and `reserved` reads 0 and takes no write. -/
theorem reservedNumbers : Obligations.ReservedNumbers := by
  intro s r v h
  have hr := regOf_reserved h
  constructor
  · simp only [hostTurn, hr]
    rfl
  · simp [hostTurn, hr, writeReg]

/-- Settles O53, by the definition of the reset step and of the reset state. -/
theorem resetStep : Obligations.ResetStep := fun _ => ⟨rfl, rfl, rfl⟩

end Sys2Proof.Machine
end
section
/-! The pure functions: the laws of the fold the checksum rests on (40_checksum.md R122, R124), and the built frame byte
by byte (30_encoding.md R90, R106). -/

namespace Sys2Proof.Machine

/-- The seed can be left to the end (40_checksum.md R122 (c)). -/
theorem fold_eq_seed_xor (bytes : List Byte) (seed : Byte) : fold bytes seed = seed ^^^ fold bytes 0x00 := by
  induction bytes using List.reverseRecOn with
  | nil => simp [fold]
  | append_singleton bytes b ih => rw [fold_append_singleton, fold_append_singleton, ih, BitVec.xor_assoc]

/-- The checksum byte makes the XOR of the whole its own seed (40_checksum.md R124). -/
theorem fold_append_fold (head : List Byte) (seed : Byte) : fold (head ++ [fold head seed]) 0x00 = seed := by
  rw [fold_append_singleton, fold_eq_seed_xor head seed, BitVec.xor_comm, BitVec.xor_assoc, BitVec.xor_self,
    BitVec.xor_zero]

/-- The two bytes of `u16_be` give the number back (00_scope.md R10, 30_encoding.md R97). -/
theorem lengthField_u16be {v : Nat} (h : v < 2 ^ 16) :
    lengthField (BitVec.ofNat 8 (v / 256)) (BitVec.ofNat 8 (v % 256)) = v := by
  simp only [lengthField, BitVec.toNat_ofNat]
  omega

/-- The bytes of a built frame: a header of three, the payload, the end byte and the checksum. -/
theorem buildFrame_eq_cons (payload : List Byte) :
    buildFrame payload =
      stx :: BitVec.ofNat 8 ((payload.length + 1) / 256) :: BitVec.ofNat 8 ((payload.length + 1) % 256) ::
        (payload ++ [etx, frameChecksum payload]) := by
  simp [buildFrame, frameHead, u16be]

theorem frameHead_length (payload : List Byte) : (frameHead payload).length = payload.length + 4 := by
  simp [frameHead, u16be]

theorem buildFrame_length (payload : List Byte) : (buildFrame payload).length = payload.length + 5 := by
  simp [buildFrame, frameHead_length]

/-- All before the checksum byte is the frame's head (41_frame_build_parse.md R140). -/
theorem buildFrame_take_head (payload : List Byte) :
    (buildFrame payload).take (payload.length + 4) = frameHead payload := by
  rw [buildFrame, ← frameHead_length, List.take_left]

theorem buildFrame_payload_byte (payload : List Byte) {i : Nat} (h : i < payload.length) :
    (buildFrame payload)[3 + i]? = payload[i]? := by
  simp [buildFrame_eq_cons, Nat.add_comm 3 i, List.getElem?_append_left h]

theorem buildFrame_end_byte (payload : List Byte) : (buildFrame payload)[payload.length + 3]? = some etx := by
  simp [buildFrame_eq_cons]

theorem buildFrame_checksum_byte (payload : List Byte) :
    (buildFrame payload)[payload.length + 4]? = some (frameChecksum payload) := by
  rw [buildFrame, ← frameHead_length, List.getElem?_concat_length]

/-- Every output of `build` is a sequence a READ accepts (30_encoding.md R106). -/
theorem acceptedFrame_buildFrame {payload : List Byte} (h : payload.length ≤ 65534) :
    AcceptedFrame (buildFrame payload) := by
  have hlen := buildFrame_length payload
  have hfield : lengthField ((buildFrame payload).getD 1 0) ((buildFrame payload).getD 2 0) = payload.length + 1 := by
    rw [buildFrame_eq_cons]
    exact lengthField_u16be (by omega)
  exact ⟨by omega, rfl, by omega, fold_append_fold _ _⟩

/-- Settles O40: each offset of the frame, its head and its checksum byte by name. -/
theorem frameLayout : Obligations.FrameLayout := by
  intro payload h F n
  have hn : n.toNat = payload.length + 1 := by
    simp only [n, BitVec.toNat_ofNat]
    omega
  have hhi : n.extractLsb' 8 8 = BitVec.ofNat 8 ((payload.length + 1) / 256) := by
    apply BitVec.eq_of_toNat_eq
    simp [hn, Nat.shiftRight_eq_div_pow]
  have hlo : n.extractLsb' 0 8 = BitVec.ofNat 8 ((payload.length + 1) % 256) := by
    apply BitVec.eq_of_toNat_eq
    simp [hn]
  refine ⟨buildFrame_length payload, rfl, ?_, ?_, fun i => buildFrame_payload_byte payload,
    buildFrame_end_byte payload, ?_⟩
  · rw [hhi]
    rfl
  · rw [hlo]
    rfl
  · rw [buildFrame_take_head]
    exact buildFrame_checksum_byte payload

end Sys2Proof.Machine
end
section
/-! NOP and the reserved command values (30_encoding.md R104). -/

namespace Sys2Proof.Machine

/-- The fields of R104 are those of every value but the eight of R101. -/
theorem reservedFields_of_not_valid : ∀ w : Byte,
    w ∉ ([0x00, 0x01, 0x02, 0x03, 0x04, 0x05, 0x06, 0x0D] : List Byte) →
      reservedFields (w.extractLsb' 0 3) (w.extractLsb' 3 1) (w.extractLsb' 4 4) = true := by
  decide

theorem decodeCmd_of_reserved {w : Byte}
    (h : reservedFields (w.extractLsb' 0 3) (w.extractLsb' 3 1) (w.extractLsb' 4 4) = true) :
    decodeCmd w = .reservedCmd (w.extractLsb' 0 3) (w.extractLsb' 3 1) (w.extractLsb' 4 4) :=
  if_pos h

theorem issueCommand_eq_exec (w : Byte) (s : State) : issueCommand w s = exec (decodeCmd w) s := rfl

theorem reservedFlagsTx_iff : ∀ op : BitVec 3, reservedFlagsTx op = true ↔ ¬(op = 4 ∨ op = 5 ∨ op = 6) := by
  decide

theorem reservedFlagsRx_iff : ∀ op : BitVec 3, reservedFlagsRx op = true ↔ ¬(op = 1 ∨ op = 2 ∨ op = 3) := by
  decide

theorem ite_reservedFlagsTx_reject (op : BitVec 3) (u : TxUnit) :
    (if reservedFlagsTx op then u.reject else u) =
      { u with cmdErr := if op = 4 ∨ op = 5 ∨ op = 6 then u.cmdErr else true } := by
  by_cases h : op = 4 ∨ op = 5 ∨ op = 6
  · rw [if_neg fun hflag => (reservedFlagsTx_iff op).1 hflag h, if_pos h]
  · rw [if_pos ((reservedFlagsTx_iff op).2 h), if_neg h]
    rfl

theorem ite_reservedFlagsRx_reject (op : BitVec 3) (u : RxUnit) :
    (if reservedFlagsRx op then u.reject else u) =
      { u with cmdErr := if op = 1 ∨ op = 2 ∨ op = 3 then u.cmdErr else true } := by
  by_cases h : op = 1 ∨ op = 2 ∨ op = 3
  · rw [if_neg fun hflag => (reservedFlagsRx_iff op).1 hflag h, if_pos h]
  · rw [if_pos ((reservedFlagsRx_iff op).2 h), if_neg h]
    rfl

/-- A reserved command sets the flags R104 names and leaves everything else. -/
theorem exec_reservedCmd (op : BitVec 3) (strict : BitVec 1) (zero : BitVec 4) (s : State) :
    exec (.reservedCmd op strict zero) s =
      .next { s with
        tx := { s.tx with cmdErr := if op = 4 ∨ op = 5 ∨ op = 6 then s.tx.cmdErr else true }
        rx := { s.rx with cmdErr := if op = 1 ∨ op = 2 ∨ op = 3 then s.rx.cmdErr else true } } := by
  change Host.Outcome.next (flagReserved op s) = _
  rw [flagReserved, ite_reservedFlagsRx_reject, ite_reservedFlagsTx_reject]
  rfl

/-- Settles O7: a value outside the table decodes to its reserved command, whose whole effect is the flags. -/
theorem nopAndReservedCommands : Obligations.NopAndReservedCommands := by
  refine fun w s => ⟨fun hnop => ?_, fun hw => ?_⟩
  · subst hnop
    exact ⟨rfl, rfl⟩
  · have hdecode := decodeCmd_of_reserved (reservedFields_of_not_valid w hw)
    have hexec := exec_reservedCmd (w.extractLsb' 0 3) (w.extractLsb' 3 1) (w.extractLsb' 4 4) s
    exact ⟨by rw [issueCommand_eq_exec, hdecode, hexec], hexec⟩

end Sys2Proof.Machine
end
section
/-! The reader inside a frame (42_frame_reader.md R176 to R181), as a predicate on the RX unit alone: which bytes it
holds and how many it still needs. Every answer either keeps the predicate or ends the READ. -/

namespace Sys2Proof.Machine

/-- The size of the frame that the length field of its header declares (30_encoding.md R97, R98). -/
def declaredSize (frame : List Byte) : Nat := lengthField (frame.getD 1 0) (frame.getD 2 0) + 4

theorem acceptedFrame_iff (frame : List Byte) :
    AcceptedFrame frame ↔
      4 ≤ frame.length ∧ frame[0]? = some stx ∧ frame.length = declaredSize frame ∧ fold frame 0 = lrcSeed := .rfl

/-- Once the header is there, more bytes do not change the declared size. -/
theorem declaredSize_append {frame : List Byte} (h : 3 ≤ frame.length) (more : List Byte) :
    declaredSize (frame ++ more) = declaredSize frame := by
  rw [declaredSize, declaredSize, List.getD_append _ _ _ _ (by omega), List.getD_append _ _ _ _ (by omega)]

theorem declaredSize_lt (frame : List Byte) : declaredSize frame < 65540 := by
  have h := lengthField_lt (frame.getD 1 0) (frame.getD 2 0)
  unfold declaredSize
  omega

theorem RxUnit.length_of_accumulated {u : RxUnit} {frame : List Byte} (h : u.accumulated = some frame) :
    frame.length = u.cnt.toNat :=
  ((Memory.firstBytes?_eq_some_iff _ _ _).1 h).1

theorem RxUnit.bufByte_of_accumulated {u : RxUnit} {frame : List Byte} (h : u.accumulated = some frame) (epoch : Nat)
    {i : Nat} (hi : i < frame.length) : u.bufByte epoch i = frame.getD i 0 := by
  obtain ⟨hlen, hread⟩ := (Memory.firstBytes?_eq_some_iff _ _ _).1 h
  rw [RxUnit.bufByte, hread i (by omega), List.getD_eq_getElem?_getD, List.getElem?_eq_getElem hi]
  rfl

/-- The length the machine decodes is the one the accumulated header declares. -/
theorem declaredLength_add_four {u : RxUnit} {frame : List Byte} (h : u.accumulated = some frame)
    (h3 : 3 ≤ frame.length) (epoch : Nat) : declaredLength epoch u + 4 = declaredSize frame := by
  rw [declaredLength, RxUnit.bufByte_of_accumulated h epoch (by omega),
    RxUnit.bufByte_of_accumulated h epoch (by omega), declaredSize]

/-- The reader holds the bytes of `frame`, which is not yet whole: the header or the body still needs bytes. -/
structure RxUnit.InFrame (u : RxUnit) (frame : List Byte) : Prop where
  accumulated : u.accumulated = some frame
  lrc : u.lrc = fold frame 0x00
  start : frame[0]? = some stx
  result : u.result = .none
  need_pos : 1 ≤ u.need.toNat
  phase : (u.state = .hdr ∧ frame.length + u.need.toNat = 4) ∨
    (u.state = .body ∧ 4 ≤ frame.length ∧ frame.length + u.need.toNat = declaredSize frame)

/-- The reader has validated a whole frame (42_frame_reader.md R181). -/
structure RxUnit.Validated (u : RxUnit) (frame : List Byte) : Prop where
  idle : u.state = .idle
  accumulated : u.accumulated = some frame
  result : u.result = if fold frame 0 = lrcSeed then .ok else .data

theorem validate_validated {u : RxUnit} {frame : List Byte} (hacc : u.accumulated = some frame)
    (hlrc : u.lrc = fold frame 0x00) : (validate u).Validated frame where
  idle := validate_state u
  accumulated := by rw [RxUnit.accumulated, validate_buf, validate_cnt]; exact hacc
  result := by
    rw [← hlrc]
    obtain ⟨hl, -, hv⟩ | ⟨hl, -, hv⟩ | ⟨hl, hv⟩ := validate_cases u <;> rw [hv]
    · exact (if_pos hl).symm
    · exact (if_pos hl).symm
    · exact (if_neg hl).symm

section

variable {u : RxUnit} {frame : List Byte}

theorem RxUnit.InFrame.ne_idle (h : u.InFrame frame) : u.state ≠ .idle := by
  obtain ⟨hs, -⟩ | ⟨hs, -⟩ := h.phase <;> simp [hs]

/-- Past the header the missing bytes are those of the declared size. -/
theorem RxUnit.InFrame.need_of_header (h : u.InFrame frame) (h4 : 4 ≤ frame.length) :
    frame.length + u.need.toNat = declaredSize frame := by
  have hpos := h.need_pos
  obtain ⟨-, hneed⟩ | ⟨-, -, hneed⟩ := h.phase
  · omega
  · exact hneed

/-- The buffer has room for the next byte. -/
theorem RxUnit.InFrame.room (h : u.InFrame frame) : u.cnt.toNat < Config.rxBufSize := by
  have hsize : Config.rxBufSize = 65539 := rfl
  have hlt := declaredSize_lt frame
  have hpos := h.need_pos
  rw [← RxUnit.length_of_accumulated h.accumulated]
  obtain ⟨-, hneed⟩ | ⟨-, -, hneed⟩ := h.phase <;> omega

theorem RxUnit.InFrame.storeByte_need_eq_zero_iff (h : u.InFrame frame) (b : Byte) :
    (storeByte b u).need = 0 ↔ u.need.toNat = 1 := by
  have hneed := storeByte_need b h.need_pos
  have hpos := h.need_pos
  rw [← BitVec.toNat_inj, hneed]
  simp
  omega

/-- A byte that does not fill the phase is stored, and that is all. -/
theorem RxUnit.InFrame.rxOnByte_of_need (h : u.InFrame frame) (epoch : Nat) (b : Byte) (hneed : u.need.toNat ≠ 1) :
    rxOnByte epoch b u = storeByte b u := by
  have hz := mt (h.storeByte_need_eq_zero_iff b).1 hneed
  obtain ⟨hs, -⟩ | ⟨hs, -⟩ := h.phase
  · rw [rxOnByte_hdr epoch b hs, if_neg hz]
  · rw [rxOnByte_body epoch b hs, if_neg hz]

theorem RxUnit.InFrame.start_append (h : u.InFrame frame) (b : Byte) : (frame ++ [b])[0]? = some stx :=
  (List.getElem?_append_left (List.getElem?_eq_some_iff.1 h.start).1).trans h.start

theorem RxUnit.InFrame.storeByte_lrc (h : u.InFrame frame) (b : Byte) :
    (storeByte b u).lrc = fold (frame ++ [b]) 0x00 := by
  rw [fold_append_singleton, ← h.lrc]
  rfl

theorem RxUnit.InFrame.after_storeByte (h : u.InFrame frame) (b : Byte) (hneed : u.need.toNat ≠ 1) :
    (storeByte b u).InFrame (frame ++ [b]) where
  accumulated := storeByte_accumulated b h.accumulated h.room
  lrc := h.storeByte_lrc b
  start := h.start_append b
  result := h.result
  need_pos := by
    have hpos := h.need_pos
    rw [storeByte_need b hpos]
    omega
  phase := by
    have hpos := h.need_pos
    rw [storeByte_need b hpos, List.length_append, List.length_singleton]
    obtain ⟨hs, hphase⟩ | ⟨hs, h4, hphase⟩ := h.phase
    · exact .inl ⟨hs, by omega⟩
    · rw [declaredSize_append (by omega)]
      exact .inr ⟨hs, by omega, by omega⟩

/-- The fourth byte of a frame ends its header: with a declared size of 4 the frame is whole, else the body begins, with
the timer started anew (42_frame_reader.md R177, R183). -/
theorem headerComplete_inFrame (epoch : Nat) (hacc : u.accumulated = some frame) (hlrc : u.lrc = fold frame 0x00)
    (hstart : frame[0]? = some stx) (hres : u.result = .none) (h4 : frame.length = 4) :
    (frame.length ≠ declaredSize frame ∧ (headerComplete epoch u).InFrame frame ∧
      (headerComplete epoch u).tmr = u.tframe) ∨
    (frame.length = declaredSize frame ∧ (headerComplete epoch u).Validated frame) := by
  have hsize := declaredLength_add_four hacc (by omega) epoch
  obtain ⟨hn, hv⟩ | ⟨hn, hv⟩ := headerComplete_cases epoch u <;> rw [hv]
  · exact .inr ⟨by omega, validate_validated (u := { u with len := 0 }) hacc hlrc⟩
  · have hlt := declaredSize_lt frame
    have hneed : (BitVec.ofNat 16 (declaredLength epoch u)).toNat = declaredLength epoch u := by
      rw [BitVec.toNat_ofNat, Nat.mod_eq_of_lt (by omega)]
    refine .inl ⟨by omega, ⟨hacc, hlrc, hstart, hres, ?_, .inr ⟨rfl, by omega, ?_⟩⟩, rfl⟩ <;> dsimp only <;> omega

/-- A byte that fills the phase ends the header, and the body begins, or it makes the frame whole. -/
theorem RxUnit.InFrame.rxOnByte_of_last (h : u.InFrame frame) (epoch : Nat) (b : Byte) (hneed : u.need.toNat = 1) :
    ((frame ++ [b]).length ≠ declaredSize (frame ++ [b]) ∧ (rxOnByte epoch b u).InFrame (frame ++ [b]) ∧
      (rxOnByte epoch b u).tmr = u.tframe) ∨
    (4 ≤ (frame ++ [b]).length ∧ (frame ++ [b]).length = declaredSize (frame ++ [b]) ∧
      (rxOnByte epoch b u).Validated (frame ++ [b])) := by
  have hz := (h.storeByte_need_eq_zero_iff b).2 hneed
  have hacc := storeByte_accumulated b h.accumulated h.room
  have hlrc := h.storeByte_lrc b
  have hlen : (frame ++ [b]).length = frame.length + 1 := by simp
  obtain ⟨hs, hphase⟩ | ⟨hs, h4, hphase⟩ := h.phase
  · rw [rxOnByte_hdr epoch b hs, if_pos hz]
    obtain hmore | ⟨hwhole, hvalid⟩ := headerComplete_inFrame epoch hacc hlrc (h.start_append b)
      h.result (by omega)
    · exact .inl hmore
    · exact .inr ⟨by omega, hwhole, hvalid⟩
  · rw [rxOnByte_body epoch b hs, if_pos hz]
    have hsize := declaredSize_append (frame := frame) (by omega) [b]
    exact .inr ⟨by omega, by omega, validate_validated hacc hlrc⟩

/-- A tick counts the timer down, or ends the READ with `LENGTH` where it is 0 (42_frame_reader.md R178, R180). -/
theorem RxUnit.InFrame.rxOnTick_eq (h : u.InFrame frame) : rxOnTick u = countTick .length u := by
  obtain ⟨hs, -⟩ | ⟨hs, -⟩ := h.phase
  · exact rxOnTick_hdr hs
  · exact rxOnTick_body hs

theorem RxUnit.InFrame.setTmr (h : u.InFrame frame) (v : Ticks) : RxUnit.InFrame { u with tmr := v } frame :=
  ⟨h.accumulated, h.lrc, h.start, h.result, h.need_pos, h.phase⟩

/-- The start byte begins a frame (42_frame_reader.md R172). -/
theorem huntStart_inFrame (hres : u.result = .none) : (huntStart u).InFrame [stx] :=
  ⟨Memory.firstBytes?_write_succ (m := u.buf) (n := 0) (bytes := []) rfl stx, rfl, rfl, hres, (by decide : 1 ≤ 3),
    .inl ⟨rfl, rfl⟩⟩

end

end Sys2Proof.Machine
end
section
/-! The bytes a READ has taken (30_encoding.md R106, only-if side): whatever the source answers, noise and then the
accumulated frame. -/

namespace Sys2Proof.Machine

/-- The bytes a READ passes over in HUNT: none is the start byte, and a strict READ passes over none. -/
def IsNoise (strict : Bool) (noise : List Byte) : Prop := stx ∉ noise ∧ (strict = true → noise = [])

/-- How far a READ has come that took these bytes since its issue. -/
inductive ReadProgress (strict : Bool) (took : List Byte) (u : RxUnit) : Prop
  | hunting (state : u.state = .hunt) (mode : u.strict = strict) (result : u.result = .none)
      (noise : IsNoise strict took)
  | inFrame (noise frame : List Byte) (eq : took = noise ++ frame) (isNoise : IsNoise strict noise)
      (holds : u.InFrame frame)
  | accepted (noise frame : List Byte) (eq : took = noise ++ frame) (isNoise : IsNoise strict noise)
      (idle : u.state = .idle) (accumulated : u.accumulated = some frame) (isFrame : AcceptedFrame frame)
  | failed (idle : u.state = .idle) (result : u.result ≠ .ok)

variable {strict : Bool} {took : List Byte} {u : RxUnit}

/-- A validated frame is accepted, or the READ has failed. -/
theorem ReadProgress.of_validated {noise frame : List Byte} (eq : took = noise ++ frame)
    (isNoise : IsNoise strict noise) (h4 : 4 ≤ frame.length) (hstart : frame[0]? = some stx)
    (hsize : frame.length = declaredSize frame) (h : u.Validated frame) : ReadProgress strict took u := by
  by_cases hfold : fold frame 0 = lrcSeed
  · exact .accepted noise frame eq isNoise h.idle h.accumulated ⟨h4, hstart, hsize, hfold⟩
  · exact .failed h.idle (by rw [h.result, if_neg hfold]; nofun)

theorem ReadProgress.after_countTick {kind : RxResult} (h : ReadProgress strict took u) (busy : u.state ≠ .idle)
    (hkind : kind ≠ .ok) : ReadProgress strict took (countTick kind u) := by
  obtain ⟨-, hc⟩ | ⟨-, hc, -⟩ := countTick_cases kind u <;> rw [hc]
  · exact .failed rfl hkind
  · cases h with
    | hunting state mode result noise => exact .hunting state mode result noise
    | inFrame noise frame eq isNoise holds => exact .inFrame noise frame eq isNoise (holds.setTmr _)
    | accepted _ _ _ _ idle => exact absurd idle busy
    | failed idle => exact absurd idle busy

theorem ReadProgress.after_tick (h : ReadProgress strict took u) (busy : u.state ≠ .idle) :
    ReadProgress strict took (rxOnTick u) := by
  cases hs : u.state with
  | idle => exact absurd hs busy
  | hunt => rw [rxOnTick_hunt hs]; exact h.after_countTick busy nofun
  | hdr => rw [rxOnTick_hdr hs]; exact h.after_countTick busy nofun
  | body => rw [rxOnTick_body hs]; exact h.after_countTick busy nofun

/-- A byte in HUNT starts the frame, fails a strict READ, or is more noise (42_frame_reader.md R172 to R174). -/
theorem readProgress_huntByte (epoch : Nat) (b : Byte) (state : u.state = .hunt) (mode : u.strict = strict)
    (result : u.result = .none) (noise : IsNoise strict took) :
    ReadProgress strict (took ++ [b]) (rxOnByte epoch b u) := by
  rw [rxOnByte_hunt epoch b state]
  split
  next hb => exact .inFrame took [stx] (by rw [hb]) noise (huntStart_inFrame result)
  next hb =>
    split
    · exact .failed rfl nofun
    next hstrict =>
      have hmore : IsNoise strict (took ++ [b]) :=
        ⟨by simp [noise.1, Ne.symm hb], fun h => absurd (mode.trans h) hstrict⟩
      exact .hunting state mode result hmore

/-- A byte inside a frame joins it. -/
theorem readProgress_frameByte {noise frame : List Byte} (epoch : Nat) (b : Byte) (isNoise : IsNoise strict noise)
    (holds : u.InFrame frame) : ReadProgress strict (noise ++ frame ++ [b]) (rxOnByte epoch b u) := by
  have heq : noise ++ frame ++ [b] = noise ++ (frame ++ [b]) := List.append_assoc ..
  by_cases hneed : u.need.toNat = 1
  · obtain ⟨-, hframe, -⟩ | ⟨h4, hsize, hvalid⟩ := holds.rxOnByte_of_last epoch b hneed
    · exact .inFrame noise _ heq isNoise hframe
    · exact .of_validated heq isNoise h4 (holds.start_append b) hsize hvalid
  · rw [holds.rxOnByte_of_need epoch b hneed]
    exact .inFrame noise _ heq isNoise (holds.after_storeByte b hneed)

theorem ReadProgress.after_answer (epoch : Nat) (a : SrcAnswer) (h : ReadProgress strict took u)
    (busy : u.state ≠ .idle) : ReadProgress strict (took ++ bytesOf [a]) (rxOn epoch a u) := by
  cases a with
  | tick =>
    rw [show bytesOf [.tick] = [] from rfl, List.append_nil]
    exact h.after_tick busy
  | byte b =>
    cases h with
    | hunting state mode result noise => exact readProgress_huntByte epoch b state mode result noise
    | inFrame noise frame eq isNoise holds =>
      subst eq
      exact readProgress_frameByte epoch b isNoise holds
    | accepted _ _ _ _ idle => exact absurd idle busy
    | failed idle => exact absurd idle busy

/-- An RX turn takes at most one answer, the next one listed if there is one. -/
theorem ReadProgress.after_turn {s t : State} (h : ReadProgress strict took s.rx) (hr : rxTurn s = .next t) :
    ∃ taken : List SrcAnswer, ReadProgress strict (took ++ bytesOf taken) t.rx ∧
      (1 ≤ s.incoming.length → s.incoming = taken ++ t.incoming ∧ taken.length ≤ 1) := by
  obtain ⟨-, rfl⟩ | ⟨busy, -, rfl, -⟩ := rxTurn_cases hr
  · exact ⟨[], by simpa [bytesOf] using h, fun _ => ⟨rfl, by simp⟩⟩
  · refine ⟨[(srcRead s).1], h.after_answer s.epoch _ busy, fun hlen => ?_⟩
    obtain ⟨a, rest, hin⟩ := List.exists_cons_of_length_pos hlen
    rw [srcRead_cons hin]
    exact ⟨hin, le_rfl⟩

theorem rxTurns_succ_eq_next {n : Nat} {s t : State} (h : rxTurns (n + 1) s = .next t) :
    ∃ m : State, rxTurn s = .next m ∧ rxTurns n m = .next t := by
  simp only [rxTurns] at h
  split at h
  next m hm => exact ⟨m, hm, h⟩
  · cases h
  · cases h

theorem bytesOf_append (as as' : List SrcAnswer) : bytesOf (as ++ as') = bytesOf as ++ bytesOf as' := by
  induction as with
  | nil => rfl
  | cons a as ih => cases a <;> simp [bytesOf, ih]

/-- Over any run of RX turns the READ's progress is that of the bytes taken, which are the listed ones while these
last. -/
theorem ReadProgress.after_turns {n : Nat} {s t : State} (h : ReadProgress strict took s.rx)
    (hr : rxTurns n s = .next t) :
    ∃ taken : List SrcAnswer, ReadProgress strict (took ++ bytesOf taken) t.rx ∧
      (n ≤ s.incoming.length → s.incoming = taken ++ t.incoming) := by
  induction n generalizing s took with
  | zero =>
    cases hr
    exact ⟨[], by simpa [bytesOf] using h, fun _ => rfl⟩
  | succ n ih =>
    obtain ⟨m, hm, hr⟩ := rxTurns_succ_eq_next hr
    obtain ⟨first, hfirst, hin⟩ := h.after_turn hm
    obtain ⟨later, hlater, hin'⟩ := ih hfirst hr
    refine ⟨first ++ later, by rwa [bytesOf_append, ← List.append_assoc], fun hlen => ?_⟩
    obtain ⟨hsplit, hone⟩ := hin (by omega)
    have hlen' := congrArg List.length hsplit
    rw [List.length_append] at hlen'
    rw [hsplit, hin' (by omega), List.append_assoc]

/-- Of the ways a READ can stand, `OK` is the accepted one. -/
theorem ReadProgress.accepted_of_ok (h : ReadProgress strict took u) (hok : u.result = .ok) :
    ∃ noise frame, took = noise ++ frame ∧ IsNoise strict noise ∧ u.accumulated = some frame ∧ AcceptedFrame frame := by
  cases h with
  | hunting _ _ result => exact nomatch result.symm.trans hok
  | inFrame _ _ _ _ holds => exact nomatch holds.result.symm.trans hok
  | accepted noise frame eq isNoise _ accumulated isFrame => exact ⟨noise, frame, eq, isNoise, accumulated, isFrame⟩
  | failed _ result => exact absurd hok result

end Sys2Proof.Machine
end
section
/-! A frame delivered within the timeouts is returned (30_encoding.md R106, if side; 42_frame_reader.md R191), and the
obligation on the accepted sequences. -/

namespace Sys2Proof.Machine

theorem ticksOf_append (as as' : List SrcAnswer) : ticksOf (as ++ as') = ticksOf as + ticksOf as' := by
  induction as with
  | nil => simp [ticksOf]
  | cons a as ih =>
    cases a with
    | byte b => exact ih
    | tick => simp only [List.cons_append, ticksOf, ih]; omega

theorem Delivers.eq_nil {as : List SrcAnswer} {limit : Nat} (h : Delivers as [] limit) : as = [] := by
  obtain ⟨hbytes, -, hnil | ⟨b, hlast⟩⟩ := h
  · exact hnil
  · obtain ⟨front, rfl⟩ := List.getLast?_eq_some_iff.1 hlast
    simp [bytesOf_append, bytesOf] at hbytes

/-- Answers that deliver bytes end with the last of them. -/
theorem Delivers.eq_append {as : List SrcAnswer} {bytes : List Byte} {limit : Nat} (h : Delivers as bytes limit)
    (hne : bytes ≠ []) :
    ∃ front b, as = front ++ [.byte b] ∧ bytes = bytesOf front ++ [b] ∧ ticksOf front ≤ limit := by
  obtain ⟨rfl, hticks, rfl | ⟨b, hlast⟩⟩ := h
  · exact absurd rfl hne
  · obtain ⟨front, rfl⟩ := List.getLast?_eq_some_iff.1 hlast
    rw [ticksOf_append] at hticks
    exact ⟨front, b, rfl, bytesOf_append front _, by omega⟩

theorem rxTurns_trans {m n : Nat} {s t : State} (h : rxTurns m s = .next t) : rxTurns (m + n) s = rxTurns n t := by
  rw [rxTurns_add, h]

/-- One turn of a reader inside a frame takes the next answer. -/
theorem RxUnit.InFrame.rxTurn_eq {s : State} {frame : List Byte} {a : SrcAnswer} {rest : List SrcAnswer}
    (h : s.rx.InFrame frame) (hopen : s.sourceOpen = true) (hin : s.incoming = a :: rest) :
    rxTurn s = .next ((s.setIncoming rest).setRx (rxOn s.epoch a s.rx)) :=
  rxTurn_of_answer h.ne_idle hopen hin fun _ _ _ => h.room

/-- Answers that neither fill the phase nor let its timer expire leave the reader in the frame, so many bytes on. -/
theorem rxTurns_within_phase (as rest : List SrcAnswer) {s : State} {frame : List Byte} (h : s.rx.InFrame frame)
    (hopen : s.sourceOpen = true) (hin : s.incoming = as ++ rest) (hticks : ticksOf as ≤ s.rx.tmr.toNat)
    (hbytes : (bytesOf as).length < s.rx.need.toNat) :
    ∃ t : State, rxTurns as.length s = .next t ∧ t.rx.InFrame (frame ++ bytesOf as) ∧
      t.rx.need.toNat = s.rx.need.toNat - (bytesOf as).length ∧ t.rx.tframe = s.rx.tframe ∧
      t.sourceOpen = true ∧ t.incoming = rest := by
  induction as generalizing s frame with
  | nil => exact ⟨s, rfl, by simpa [bytesOf] using h, rfl, rfl, hopen, hin⟩
  | cons a as ih =>
    have hturn := h.rxTurn_eq hopen hin
    rw [List.length_cons, rxTurns_succ _ hturn]
    cases a with
    | tick =>
      simp only [ticksOf] at hticks
      obtain ⟨h0, -⟩ | ⟨-, hc, htmr⟩ := countTick_cases .length s.rx
      · simp [h0] at hticks
      · have hrx : rxOn s.epoch .tick s.rx = { s.rx with tmr := s.rx.tmr - 1 } := h.rxOnTick_eq.trans hc
        rw [hrx]
        exact ih (h.setTmr _) hopen rfl (by simp only [State.setRx_rx]; omega) hbytes
    | byte b =>
      simp only [bytesOf, List.length_cons] at hbytes
      have hneed := storeByte_need b h.need_pos
      have hrx : rxOn s.epoch (.byte b) s.rx = storeByte b s.rx := h.rxOnByte_of_need s.epoch b (by omega)
      rw [hrx]
      obtain ⟨t, hrun, hframe, hneed', hrest⟩ :=
        ih (s := (s.setIncoming (as ++ rest)).setRx (storeByte b s.rx)) (h.after_storeByte b (by omega)) hopen rfl
          hticks (by simp only [State.setRx_rx]; omega)
      refine ⟨t, hrun, by simpa [bytesOf] using hframe, ?_, hrest⟩
      simp only [State.setRx_rx] at hneed'
      simp only [bytesOf, List.length_cons]
      omega

/-- Answers that deliver the bytes a phase needs end it: the body begins with its timer full, or the frame is whole. -/
theorem rxTurns_phase {as rest : List SrcAnswer} {bytes : List Byte} {s : State} {frame : List Byte}
    (h : s.rx.InFrame frame) (hopen : s.sourceOpen = true) (hin : s.incoming = as ++ rest)
    (hdel : Delivers as bytes s.rx.tmr.toNat) (hbytes : bytes.length = s.rx.need.toNat) :
    ∃ t : State, rxTurns as.length s = .next t ∧ t.sourceOpen = true ∧ t.incoming = rest ∧
      (((frame ++ bytes).length ≠ declaredSize (frame ++ bytes) ∧ t.rx.InFrame (frame ++ bytes) ∧
        t.rx.tmr = s.rx.tframe) ∨
      ((frame ++ bytes).length = declaredSize (frame ++ bytes) ∧ t.rx.Validated (frame ++ bytes))) := by
  have hpos := h.need_pos
  obtain ⟨front, b, rfl, rfl, hticks⟩ := hdel.eq_append (List.ne_nil_of_length_pos (by omega))
  rw [List.length_append, List.length_singleton] at hbytes
  obtain ⟨m, hrun, hframe, hneed, htframe, hopen', hin'⟩ :=
    rxTurns_within_phase front (.byte b :: rest) h hopen (by simpa using hin) hticks (by omega)
  have hlast := hframe.rxOnByte_of_last m.epoch b (by omega)
  rw [htframe, List.append_assoc] at hlast
  rw [List.length_append, rxTurns_trans hrun]
  refine ⟨_, rxTurns_succ 0 (hframe.rxTurn_eq hopen' hin'), hopen', rfl, ?_⟩
  exact hlast.imp id And.right

/-- An accepted frame is the start byte, the three other bytes of the header, and a body. -/
theorem AcceptedFrame.exists_header {frame : List Byte} (h : AcceptedFrame frame) :
    ∃ header body : List Byte, frame = stx :: (header ++ body) ∧ header.length = 3 := by
  obtain ⟨h4, hstart, -, -⟩ := (acceptedFrame_iff frame).1 h
  cases frame with
  | nil => cases hstart
  | cons b tail =>
    cases hstart
    rw [List.length_cons] at h4
    exact ⟨tail.take 3, tail.drop 3, by rw [List.take_append_drop], by rw [List.length_take]; omega⟩

/-- After the start byte, answers that deliver the header and the body of a frame of the declared size make it whole. -/
theorem rxTurns_header_body {s : State} {header body : List Byte} {headerAnswers bodyAnswers rest : List SrcAnswer}
    (h : s.rx.InFrame [stx]) (hopen : s.sourceOpen = true)
    (hin : s.incoming = headerAnswers ++ (bodyAnswers ++ rest))
    (hheader : Delivers headerAnswers header s.rx.tmr.toNat) (hbody : Delivers bodyAnswers body s.rx.tframe.toNat)
    (hthree : header.length = 3) (hsize : (stx :: (header ++ body)).length = declaredSize (stx :: (header ++ body))) :
    ∃ t : State, rxTurns (headerAnswers.length + bodyAnswers.length) s = .next t ∧ t.incoming = rest ∧
      t.rx.Validated (stx :: (header ++ body)) := by
  have hlen : ([stx] ++ header).length = 4 := congrArg Nat.succ hthree
  have hsize' : ([stx] ++ header).length + body.length = declaredSize ([stx] ++ header) := by
    rw [← List.length_append, ← declaredSize_append (by omega) body]
    exact hsize
  have hneed : header.length = s.rx.need.toNat := by
    obtain ⟨-, hphase⟩ | ⟨-, h4, -⟩ := h.phase
    · rw [List.length_singleton] at hphase
      omega
    · simp at h4
  obtain ⟨m, hrun, hopen', hin', ⟨-, hinFrame, htmr⟩ | ⟨hwhole, hvalid⟩⟩ := rxTurns_phase h hopen hin hheader hneed
  · rw [rxTurns_trans hrun]
    have hneed' := hinFrame.need_of_header (by omega)
    rw [← htmr] at hbody
    obtain ⟨t, hrun', -, hin'', ⟨hmore, -⟩ | ⟨-, hvalid⟩⟩ := rxTurns_phase hinFrame hopen' hin' hbody (by omega)
    · exact absurd hsize hmore
    · exact ⟨t, hrun', hin'', hvalid⟩
  · obtain rfl : body = [] := List.eq_nil_of_length_eq_zero (by omega)
    obtain rfl := hbody.eq_nil
    rw [List.append_nil]
    exact ⟨m, hrun, hin', hvalid⟩

theorem rxTurn_startByte {s : State} {rest : List SrcAnswer} (hunt : s.rx.state = .hunt) (hopen : s.sourceOpen = true)
    (hin : s.incoming = .byte stx :: rest) : rxTurn s = .next ((s.setIncoming rest).setRx (huntStart s.rx)) := by
  rw [rxTurn_of_answer (by simp [hunt]) hopen hin fun _ _ h => absurd hunt h]
  exact congrArg (fun u => Host.Outcome.next (State.setRx _ u)) (rxOnByte_hunt s.epoch stx hunt)

/-- Answers that deliver an accepted frame make a reader in HUNT take the whole of it. -/
theorem rxTurns_of_deliversFrame {s : State} {frame : List Byte} {answers rest : List SrcAnswer}
    (hunt : s.rx.state = .hunt) (hres : s.rx.result = .none) (hopen : s.sourceOpen = true)
    (hframe : AcceptedFrame frame) (hdel : DeliversFrame answers frame s.rx.tframe.toNat)
    (hin : s.incoming = answers ++ rest) :
    ∃ t : State, rxTurns answers.length s = .next t ∧ t.incoming = rest ∧ t.rx.Validated frame := by
  obtain ⟨-, -, hsize, -⟩ := (acceptedFrame_iff frame).1 hframe
  obtain ⟨header, body, rfl, hthree⟩ := hframe.exists_header
  obtain ⟨headerAnswers, bodyAnswers, rfl, hheader, hbody⟩ := hdel
  simp only [List.drop_succ_cons, List.drop_zero, List.take_left' hthree, List.drop_left' hthree] at hheader hbody
  rw [List.cons_append, List.append_assoc] at hin
  rw [List.length_cons, rxTurns_succ _ (rxTurn_startByte hunt hopen hin), List.length_append]
  exact rxTurns_header_body (huntStart_inFrame hres) hopen rfl hheader hbody hthree hsize

/-- A READ that goes on from an idle unit is issued (42_frame_reader.md R171). -/
theorem exec_read_of_idle {s s1 : State} {strict : Bool} (idle : s.rx.state = .idle)
    (h : exec (.read strict) s = .next s1) : s1 = s.setRx (readIssue false strict s.rx.accept) := by
  obtain ⟨-, hissue⟩ := execRead_eq_next.1 h
  rw [rxCommand_of_idle _ idle] at hissue
  cases hissue
  rfl

theorem exec_read_issued {s : State} (strict : Bool) (idle : s.rx.state = .idle) (hopen : s.sourceOpen = true) :
    exec (.read strict) s = .next (s.setRx (readIssue false strict s.rx.accept)) :=
  execRead_eq_next.2 ⟨fun _ => hopen, rxCommand_of_idle _ idle⟩

/-- Only accepted sequences: an `OK` READ took noise and then the sequence it accumulated. -/
theorem read_ok_accepted {s s1 t : State} {strict : Bool} {n : Nat} (idle : s.rx.state = .idle)
    (hexec : exec (.read strict) s = .next s1) (hrun : rxTurns n s1 = .next t) (hok : t.rx.result = .ok) :
    ∃ B : List Byte, t.rx.accumulated = some B ∧ AcceptedFrame B ∧
      (n ≤ s.incoming.length → ∃ (taken : List SrcAnswer) (noise : List Byte),
        s.incoming = taken ++ t.incoming ∧ bytesOf taken = noise ++ B ∧ stx ∉ noise ∧
          (strict = true → noise = [])) := by
  obtain rfl := exec_read_of_idle idle hexec
  have hissued : ReadProgress strict [] (s.setRx (readIssue false strict s.rx.accept)).rx :=
    .hunting rfl rfl rfl ⟨List.not_mem_nil, fun _ => rfl⟩
  obtain ⟨taken, hprogress, hin⟩ := hissued.after_turns hrun
  obtain ⟨noise, B, heq, ⟨hnoise, hstrict⟩, hacc, hframe⟩ := hprogress.accepted_of_ok hok
  exact ⟨B, hacc, hframe, fun hn => ⟨taken, noise, hin hn, heq, hnoise, hstrict⟩⟩

/-- All accepted sequences: delivered within the timeouts, each is returned. -/
theorem read_returns_accepted {s : State} (strict : Bool) {B : List Byte} {answers rest : List SrcAnswer}
    (idle : s.rx.state = .idle) (hopen : s.sourceOpen = true) (hframe : AcceptedFrame B)
    (hdel : DeliversFrame answers B s.rx.regTframe.toNat) (hin : s.incoming = answers ++ rest) :
    ∃ s1 t : State, exec (.read strict) s = .next s1 ∧ rxTurns answers.length s1 = .next t ∧
      t.rx.state = .idle ∧ t.rx.result = .ok ∧ t.rx.accumulated = some B ∧ t.incoming = rest := by
  obtain ⟨t, hrun, hrest, hvalid⟩ := rxTurns_of_deliversFrame
    (s := s.setRx (readIssue false strict s.rx.accept)) rfl rfl hopen hframe hdel hin
  obtain ⟨-, -, -, hfold⟩ := (acceptedFrame_iff B).1 hframe
  exact ⟨_, t, exec_read_issued strict idle hopen, hrun, hvalid.idle, hvalid.result.trans (if_pos hfold),
    hvalid.accumulated, hrest⟩

/-- The accepted sequence of declared length 0, which `build` never makes (42_frame_reader.md R183). -/
theorem exists_acceptedFrame_not_built :
    ∃ B : List Byte, AcceptedFrame B ∧ ∀ P : List Byte, P.length ≤ 65534 → B ≠ buildFrame P := by
  refine ⟨[0x02, 0x00, 0x00, 0x00], by decide, fun P _ heq => ?_⟩
  have hlen := congrArg List.length heq
  rw [buildFrame_length, List.length_cons, List.length_cons, List.length_cons, List.length_singleton] at hlen
  omega

/-- Settles O31: an `OK` READ has taken an accepted sequence after noise, every accepted sequence delivered within the
timeouts is returned, and the frames `build` makes are some of these sequences. -/
theorem acceptedSetIsExact : Obligations.AcceptedSetIsExact :=
  ⟨fun _ _ _ _ _ _ => read_ok_accepted, fun _ strict _ _ _ => read_returns_accepted strict,
    fun _ => acceptedFrame_buildFrame, exists_acceptedFrame_not_built⟩

end Sys2Proof.Machine
end
section
/-! The laws of the XOR fold, the self-check and the frame checksum in closed form (40_checksum.md R122 to R124). -/

namespace Sys2Proof.Machine

/-- A first byte joins the seed. -/
theorem fold_cons (b : Byte) (bytes : List Byte) (seed : Byte) :
    fold (b :: bytes) seed = fold bytes (seed ^^^ b) := rfl

theorem fold_append (bytes bytes' : List Byte) (seed : Byte) :
    fold (bytes ++ bytes') seed = fold bytes' (fold bytes seed) :=
  List.foldl_append

/-- The order of the bytes does not matter, since `^^^` is commutative and associative (40_checksum.md R122 (d)). -/
theorem fold_perm {bytes bytes' : List Byte} (h : bytes.Perm bytes') (seed : Byte) :
    fold bytes seed = fold bytes' seed :=
  h.foldl_eq seed

/-- Changing one byte changes the fold by the XOR of the two values: bring the byte to the front, where it joins the
seed (40_checksum.md R122 (f)). -/
theorem fold_set {bytes : List Byte} {i : Nat} {v : Byte} (h : bytes[i]? = some v) (v' seed : Byte) :
    fold (bytes.set i v') seed = fold bytes seed ^^^ (v ^^^ v') := by
  obtain ⟨hi, rfl⟩ := List.getElem?_eq_some_iff.1 h
  have hset : fold (bytes.set i v') seed = fold (bytes.eraseIdx i) (seed ^^^ v') :=
    fold_perm (List.set_perm_cons_eraseIdx hi v') seed
  have hold : fold bytes seed = fold (bytes.eraseIdx i) (seed ^^^ bytes[i]) :=
    (fold_perm (List.getElem_cons_eraseIdx_perm hi) seed).symm
  rw [hset, hold, fold_eq_seed_xor _ (seed ^^^ v'), fold_eq_seed_xor _ (seed ^^^ bytes[i])]
  generalize fold (bytes.eraseIdx i) 0x00 = rest
  calc seed ^^^ v' ^^^ rest
      = seed ^^^ v' ^^^ rest ^^^ (bytes[i] ^^^ bytes[i]) := by rw [BitVec.xor_self, BitVec.xor_zero]
    _ = seed ^^^ bytes[i] ^^^ rest ^^^ (bytes[i] ^^^ v') := by ac_rfl

/-- Settles O37: each law by name. -/
theorem foldLaws : Obligations.FoldLaws :=
  ⟨fun _ => rfl, fold_append, fold_eq_seed_xor, fun _ _ seed h => fold_perm h seed, fold_append_singleton,
    fun _ _ _ v' seed h => ⟨fold_set h v' seed, fun hne heq => hne (BitVec.xor_eq_zero_iff.1 heq)⟩⟩

/-- The seed that brings the fold to 0x00 is the fold from 0x00. -/
theorem fold_eq_zero_iff (bytes : List Byte) (seed : Byte) : fold bytes seed = 0x00 ↔ fold bytes 0x00 = seed := by
  rw [fold_eq_seed_xor]
  exact BitVec.xor_eq_zero_iff.trans eq_comm

/-- Settles O38: the second and the third form are one fact about any sequence, and each of the other two is the
third with its last or its first byte taken out of the fold. -/
theorem selfCheckForms : Obligations.SelfCheckForms := by
  intro H c F
  have hthird : fold F 0x00 = 0x02 ↔ fold F 0x02 = 0x00 := (fold_eq_zero_iff F 0x02).symm
  refine ⟨?_, hthird, fun hfirst => ?_⟩
  · rw [hthird, fold_append_singleton]
    exact eq_comm.trans BitVec.xor_eq_zero_iff.symm
  · obtain ⟨rest, hF⟩ : ∃ rest, F = 0x02 :: rest := List.head?_eq_some_iff.1 (List.head?_eq_getElem?.trans hfirst)
    rw [hthird, hF, fold_cons, BitVec.xor_self]
    exact .rfl

/-- The seed cancels the start byte, and the rest of the head is the two length bytes, the payload and the end byte
(40_checksum.md R123). -/
theorem frameChecksum_eq_xor (payload : List Byte) :
    frameChecksum payload =
      BitVec.ofNat 8 ((payload.length + 1) / 256) ^^^ BitVec.ofNat 8 ((payload.length + 1) % 256) ^^^
        fold payload 0x00 ^^^ etx := by
  rw [frameChecksum, frameHead, fold_cons, u16be, fold_append_singleton, fold_append, fold_eq_seed_xor payload]
  simp only [fold_cons, lrcSeed, stx, BitVec.xor_self, BitVec.zero_xor]
  rfl

/-- Settles O39: the checksum byte by name, in closed form and over the frame's head. -/
theorem checksumClosedForm : Obligations.ChecksumClosedForm := by
  intro payload _
  refine ⟨_, _, rfl, ?_, ?_⟩
  · rw [buildFrame_checksum_byte, frameChecksum_eq_xor]
    rfl
  · rw [buildFrame_checksum_byte, buildFrame_take_head]
    rfl

end Sys2Proof.Machine
end
section
/-! The payload the TX operations read, and CHECKSUM (40_checksum.md R121). -/

namespace Sys2Proof.Machine

theorem TxUnit.payload_length (u : TxUnit) (epoch : Nat) : (u.payload epoch).length = u.plen.toNat := by
  simp [TxUnit.payload, Memory.bytes]

/-- Where `tx_pay` has been written, the payload is what was written. -/
theorem TxUnit.payload_getElem?_of_read? {u : TxUnit} {i : Nat} {b : Byte} (epoch : Nat) (hi : i < u.plen.toNat)
    (hread : u.pay.read? i = some b) : (u.payload epoch)[i]? = some b := by
  simp [TxUnit.payload, Memory.bytes, hi, hread]

/-- Settles O9: CHECKSUM is the TX command of its issue rule, rejected while the unit is busy. -/
theorem checksumResult : Obligations.ChecksumResult := by
  intro s
  exact ⟨rfl, txCommand_of_busy _, fun idle =>
    ⟨txCommand_of_idle _ idle, s.tx.payload_length s.epoch, fun _ _ => TxUnit.payload_getElem?_of_read? s.epoch⟩⟩

end Sys2Proof.Machine
end
section
/-! `parse` as the inverse of `build` (41_frame_build_parse.md R146 to R151). -/

namespace Sys2Proof.Machine

theorem parseFrame_length (frame : List Byte) : (parseFrame frame).length = frame.length - 5 := by
  rw [parseFrame, List.length_drop, List.length_take]
  omega

/-- A byte of the payload stands three places later in the frame (41_frame_build_parse.md R146). -/
theorem parseFrame_getElem? (frame : List Byte) {i : Nat} (h : i < frame.length - 5) :
    (parseFrame frame)[i]? = frame[3 + i]? := by
  rw [parseFrame, List.getElem?_drop, List.getElem?_take_of_lt (by omega)]

/-- `parse` cuts off the three header bytes, the end byte and the checksum (41_frame_build_parse.md R148). -/
theorem parseFrame_buildFrame (payload : List Byte) : parseFrame (buildFrame payload) = payload := by
  rw [parseFrame, buildFrame_length, buildFrame_eq_cons]
  simp

/-- A built frame is an accepted one, so its length field counts all but four of its bytes
(41_frame_build_parse.md R149). -/
theorem lengthField_buildFrame {payload : List Byte} (h : payload.length ≤ 65534) :
    lengthField ((buildFrame payload).getD 1 0) ((buildFrame payload).getD 2 0) = payload.length + 1 := by
  obtain ⟨-, -, hsize, -⟩ := acceptedFrame_buildFrame h
  rw [buildFrame_length] at hsize
  omega

/-- Settles O41: `parse` is a left inverse of `build`, which is therefore injective. -/
theorem buildAndParse : Obligations.BuildAndParse := by
  refine ⟨fun payload h => ⟨parseFrame_buildFrame payload, buildFrame_length payload, lengthField_buildFrame h, ?_⟩,
    fun _ _ _ _ heq => Function.LeftInverse.injective parseFrame_buildFrame heq⟩
  rw [buildFrame_length]
  rfl

end Sys2Proof.Machine
end
section
/-! PARSE, whose view is `parse` of the accumulated bytes (41_frame_build_parse.md R147). -/

namespace Sys2Proof.Machine

/-- The view's length is the count without the five bytes around a payload, and 0 where there are fewer
(41_frame_build_parse.md R147). -/
theorem payloadView_plen_toNat (u : RxUnit) : (payloadView u).plen.toNat = u.cnt.toNat - 5 := by
  by_cases h : 5 ≤ u.cnt.toNat
  · have hsub : (u.cnt - 5).toNat = u.cnt.toNat - 5 := BitVec.toNat_sub_of_le (BitVec.le_def.2 h)
    simp only [payloadView, if_pos h, hsub]
  · have hzero : u.cnt.toNat - 5 = 0 := by omega
    simp [payloadView, h, hzero]

theorem parseFrame_length_eq_plen {u : RxUnit} {frame : List Byte} (h : u.accumulated = some frame) :
    (parseFrame frame).length = (payloadView u).plen.toNat := by
  rw [parseFrame_length, RxUnit.length_of_accumulated h, payloadView_plen_toNat]

/-- The bytes in the view are those of `parse` of the accumulated frame. -/
theorem payloadView_read?_eq_parseFrame {u : RxUnit} {frame : List Byte} (h : u.accumulated = some frame) {i : Nat}
    (hi : i < (payloadView u).plen.toNat) : u.buf.read? (3 + i) = (parseFrame frame)[i]? := by
  obtain ⟨hlen, hread⟩ := (Memory.firstBytes?_eq_some_iff _ _ _).1 h
  rw [payloadView_plen_toNat] at hi
  rw [parseFrame_getElem? frame (by omega), hread _ (by omega)]

/-- Settles O15: PARSE is the RX command that leaves the payload view, rejected while the unit is busy. -/
theorem parseResult : Obligations.ParseResult := by
  intro s
  exact ⟨rfl, rxCommand_of_busy _, fun idle => ⟨rxCommand_of_idle _ idle, fun _ hacc =>
    ⟨parseFrame_length_eq_plen hacc, fun _ => payloadView_read?_eq_parseFrame hacc⟩⟩⟩

end Sys2Proof.Machine
end
section
/-! The error `TX_LEN` of BUILD and SEND (41_frame_build_parse.md R142), and the TX step (R144). -/

namespace Sys2Proof.Machine

/-- The length test looks at `tx_plen` alone (41_frame_build_parse.md R142). -/
theorem tooLong_eq_true_iff (u : TxUnit) : tooLong u = true ↔ 65534 < u.plen.toNat := decide_eq_true_iff

theorem buildIssue_of_tooLong {u : TxUnit} (epoch : Nat) (h : tooLong u = true) :
    buildIssue epoch u = raiseTx .txLen u := if_pos h

theorem sendIssue_of_tooLong {u : TxUnit} (epoch : Nat) (h : tooLong u = true) :
    sendIssue epoch u = raiseTx .txLen u := if_pos h

theorem raiseTx_of_idle (kind : TxResult) {u : TxUnit} (idle : u.state = .idle) :
    raiseTx kind u = { u with result := kind } := by
  rw [raiseTx, ← idle]

/-- A TX command issued to an idle unit that raises `TX_LEN` changes the result and the command-error flag only
(60_exceptions.md R245). -/
theorem txCommand_of_raises_txLen {issue : TxUnit → TxUnit} {s : State} (idle : s.tx.state = .idle)
    (h : issue s.tx.accept = raiseTx .txLen s.tx.accept) :
    txCommand issue s = .next (s.setTx { s.tx with result := .txLen, cmdErr := false }) := by
  rw [txCommand_of_idle issue idle, h, raiseTx_of_idle .txLen (u := s.tx.accept) idle]
  rfl

theorem exec_build_of_tooLong {s : State} (idle : s.tx.state = .idle) (h : tooLong s.tx = true) :
    exec .build s = .next (s.setTx { s.tx with result := .txLen, cmdErr := false }) :=
  txCommand_of_raises_txLen idle (buildIssue_of_tooLong s.epoch h)

/-- A SEND that is too long needs no source (41_frame_build_parse.md R142). -/
theorem exec_send_of_tooLong {s : State} (idle : s.tx.state = .idle) (h : tooLong s.tx = true) :
    exec .send s = .next (s.setTx { s.tx with result := .txLen, cmdErr := false }) :=
  execSend_eq_next.2 ⟨fun _ hshort => (nomatch h.symm.trans hshort),
    txCommand_of_raises_txLen idle (sendIssue_of_tooLong s.epoch h)⟩

/-- Settles O11: BUILD and SEND raise `TX_LEN` on the length test alone, and CHECKSUM has no such test. -/
theorem overlongPayloadIsRefused : Obligations.OverlongPayloadIsRefused := by
  intro s idle
  refine ⟨fun h => ?_, _, txCommand_of_idle (checksumIssue s.epoch) idle, rfl⟩
  have hlong := (tooLong_eq_true_iff s.tx).2 h
  exact ⟨exec_build_of_tooLong idle hlong, exec_send_of_tooLong idle hlong⟩

/-- Without a SEND in flight, or with the sink not ready, there is no TX step (41_frame_build_parse.md R144). -/
theorem txTurn_of_idle_or_not_ready {ready : Bool} {s : State} (h : s.tx.state = .idle ∨ ready = false) :
    txTurn ready s = .next s := if_pos h

theorem TxUnit.emitByte_of_read? {u : TxUnit} {b : Byte} (epoch : Nat) (h : u.frm.read? u.idx.toNat = some b) :
    u.emitByte epoch = b := by
  rw [TxUnit.emitByte, h]
  rfl

/-- After the last byte the SEND ends `OK`, after any other it stays in flight (41_frame_build_parse.md R144). -/
theorem txAdvance_of_emit {u : TxUnit} (emit : u.state = .emit) :
    txAdvance u = { u with
      idx := u.idx + 1
      state := if u.idx + 1 = u.flen then .idle else .emit
      result := if u.idx + 1 = u.flen then .ok else u.result } := by
  unfold txAdvance
  by_cases hlast : u.idx + 1 = u.flen
  · simp only [if_pos hlast]
  · simp only [if_neg hlast, ← emit]

/-- Settles O13: the TX step by its two cases, its byte and its registers by name. -/
theorem txStepResult : Obligations.TxStepResult := by
  refine fun s => ⟨fun _ => txTurn_of_idle_or_not_ready, fun b emit hopen hidx hread => ?_⟩
  have hstep : perform (.tx true) s = .next ((srcWrite (s.tx.emitByte s.epoch) s).setTx (txAdvance s.tx)) :=
    txTurn_of_emit emit hopen hidx
  rw [hstep, TxUnit.emitByte_of_read? s.epoch hread, txAdvance_of_emit emit]
  rfl

end Sys2Proof.Machine
end
section
/-! The RX step, answer by answer in each state (42_frame_reader.md R172 to R187), with everything it leaves
unchanged. -/

namespace Sys2Proof.Machine

/-! `validate()` (42_frame_reader.md R181), an equation for each of its ends. -/

theorem validate_data {u : RxUnit} (h : u.lrc ≠ lrcSeed) : validate u = { u with result := .data, state := .idle } :=
  if_neg h

theorem validate_read_ok {u : RxUnit} (h : u.lrc = lrcSeed) (read : u.recv = false) :
    validate u = { u with result := .ok, state := .idle } := by
  simp [validate, h, read]

theorem validate_recv_ok {u : RxUnit} (h : u.lrc = lrcSeed) (recv : u.recv = true) :
    validate u = { payloadView u with result := .ok, state := .idle } := by
  simp [validate, h, recv]

/-! `header_complete()` (42_frame_reader.md R177). -/

/-- The declared length is that of the two length bytes in the buffer. -/
theorem declaredLength_of_read? {u : RxUnit} {hi lo : Byte} (epoch : Nat) (h1 : u.buf.read? 1 = some hi)
    (h2 : u.buf.read? 2 = some lo) : declaredLength epoch u = hi.toNat * 256 + lo.toNat := by
  rw [declaredLength, RxUnit.bufByte, RxUnit.bufByte, h1, h2]
  rfl

theorem headerComplete_of_zero {epoch : Nat} {u : RxUnit} (h : declaredLength epoch u = 0) :
    headerComplete epoch u = validate { u with len := 0 } := if_pos h

theorem headerComplete_of_ne_zero {epoch : Nat} {u : RxUnit} (h : declaredLength epoch u ≠ 0) :
    headerComplete epoch u =
      { u with
        len := BitVec.ofNat 16 (declaredLength epoch u)
        need := BitVec.ofNat 16 (declaredLength epoch u)
        tmr := u.tframe
        state := .body } := if_neg h

/-! The turn on the next answer. -/

section

variable {s : State} {rest : List SrcAnswer}

/-- The turn takes the answer and leaves the RX unit as the rules say. -/
theorem rxTurn_answer {a : SrcAnswer} {u : RxUnit} (busy : s.rx.state ≠ .idle) (hopen : s.sourceOpen = true)
    (hin : s.incoming = a :: rest)
    (room : ∀ b, a = .byte b → s.rx.state ≠ .hunt → s.rx.cnt.toNat < Config.rxBufSize)
    (h : rxOn s.epoch a s.rx = u) : rxTurn s = .next ((s.setIncoming rest).setRx u) := by
  rw [rxTurn_of_answer busy hopen hin room, h]

/-- A tick on an expired timer ends the READ with the phase's error (42_frame_reader.md R175, R178, R180). -/
theorem rxTurn_tick_expires {kind : RxResult} {a : SrcAnswer} (busy : s.rx.state ≠ .idle) (hopen : s.sourceOpen = true)
    (hin : s.incoming = a :: rest) (hphase : rxOnTick s.rx = countTick kind s.rx) (ha : a = .tick)
    (htmr : s.rx.tmr = 0) :
    rxTurn s = .next ((s.setIncoming rest).setRx { s.rx with result := kind, state := .idle }) := by
  subst ha
  exact rxTurn_answer busy hopen hin nofun (hphase.trans (if_pos htmr))

/-- Any other tick counts the timer down (42_frame_reader.md R175, R178, R180). -/
theorem rxTurn_tick_counts {kind : RxResult} {a : SrcAnswer} (busy : s.rx.state ≠ .idle) (hopen : s.sourceOpen = true)
    (hin : s.incoming = a :: rest) (hphase : rxOnTick s.rx = countTick kind s.rx) (ha : a = .tick)
    (htmr : s.rx.tmr ≠ 0) :
    rxTurn s = .next ((s.setIncoming rest).setRx { s.rx with tmr := s.rx.tmr - 1 }) := by
  subst ha
  exact rxTurn_answer busy hopen hin nofun (hphase.trans (if_neg htmr))

theorem rxTurn_byte {b : Byte} {u : RxUnit} (busy : s.rx.state ≠ .idle) (hopen : s.sourceOpen = true)
    (hin : s.incoming = .byte b :: rest) (room : s.rx.state ≠ .hunt → s.rx.cnt.toNat < Config.rxBufSize)
    (h : rxOnByte s.epoch b s.rx = u) : rxTurn s = .next ((s.setIncoming rest).setRx u) :=
  rxTurn_answer busy hopen hin (fun _ _ => room) h

end

/-! The rules for a byte, one equation for each case. -/

section

variable {u : RxUnit} {b : Byte} {epoch : Nat}

theorem rxOnByte_hunt_stx (hunt : u.state = .hunt) : rxOnByte epoch stx u = huntStart u :=
  (rxOnByte_hunt epoch stx hunt).trans (if_pos rfl)

theorem rxOnByte_hunt_strict (hunt : u.state = .hunt) (hb : b ≠ stx) (strict : u.strict = true) :
    rxOnByte epoch b u = huntStrict b u :=
  (rxOnByte_hunt epoch b hunt).trans ((if_neg hb).trans (if_pos strict))

theorem rxOnByte_hunt_noise (hunt : u.state = .hunt) (hb : b ≠ stx) (lax : u.strict = false) :
    rxOnByte epoch b u = huntNoise u :=
  (rxOnByte_hunt epoch b hunt).trans ((if_neg hb).trans (if_neg (Bool.eq_false_iff.1 lax)))

theorem rxOnByte_hdr_more (hdr : u.state = .hdr) (more : (storeByte b u).need ≠ 0) :
    rxOnByte epoch b u = storeByte b u :=
  (rxOnByte_hdr epoch b hdr).trans (if_neg more)

theorem rxOnByte_hdr_last (hdr : u.state = .hdr) (last : (storeByte b u).need = 0) :
    rxOnByte epoch b u = headerComplete epoch (storeByte b u) :=
  (rxOnByte_hdr epoch b hdr).trans (if_pos last)

/-- Length 0 goes straight to validation (42_frame_reader.md R183). -/
theorem rxOnByte_hdr_zero (hdr : u.state = .hdr) (last : (storeByte b u).need = 0)
    (zero : declaredLength epoch (storeByte b u) = 0) :
    rxOnByte epoch b u = validate { storeByte b u with len := 0 } :=
  (rxOnByte_hdr_last hdr last).trans (headerComplete_of_zero zero)

theorem rxOnByte_body_more (body : u.state = .body) (more : (storeByte b u).need ≠ 0) :
    rxOnByte epoch b u = storeByte b u :=
  (rxOnByte_body epoch b body).trans (if_neg more)

theorem rxOnByte_body_last (body : u.state = .body) (last : (storeByte b u).need = 0) :
    rxOnByte epoch b u = validate (storeByte b u) :=
  (rxOnByte_body epoch b body).trans (if_pos last)

end

/-- Settles O22: the RX unit's turn asks first whether the unit is idle. -/
theorem idleRxUnitDoesNothing : Obligations.IdleRxUnitDoesNothing := fun _ => rxTurn_of_idle

/-- Settles O19: the three rules for a byte in HUNT, and the tick of a phase that expires with `TIMEOUT`. -/
theorem huntStep : Obligations.HuntStep := by
  intro s a rest hunt hopen hin
  have busy : s.rx.state ≠ .idle := by simp [hunt]
  refine ⟨?start, ?strict, ?noise, rxTurn_tick_expires busy hopen hin (rxOnTick_hunt hunt),
    rxTurn_tick_counts busy hopen hin (rxOnTick_hunt hunt)⟩
  case start =>
    rintro rfl
    exact rxTurn_byte busy hopen hin (absurd hunt) (rxOnByte_hunt_stx hunt)
  case strict =>
    rintro b rfl hb strict
    exact rxTurn_byte busy hopen hin (absurd hunt) (rxOnByte_hunt_strict hunt hb strict)
  case noise =>
    rintro b rfl hb lax
    exact rxTurn_byte busy hopen hin (absurd hunt) (rxOnByte_hunt_noise hunt hb lax)

/-- Settles O20: a byte is stored, and where it is the last of the header the declared length decides between the body
and validation at once; a tick is that of a phase that expires with `LENGTH`. -/
theorem headerStep : Obligations.HeaderStep := by
  intro s a rest hdr hopen hin
  have busy : s.rx.state ≠ .idle := by simp [hdr]
  refine ⟨?_, rxTurn_tick_expires busy hopen hin (rxOnTick_hdr hdr),
    rxTurn_tick_counts busy hopen hin (rxOnTick_hdr hdr)⟩
  rintro b rfl room
  refine ⟨fun more => rxTurn_byte busy hopen hin (fun _ => room) (rxOnByte_hdr_more hdr more), ?_⟩
  intro hi lo n last h1 h2 hn
  have len : declaredLength s.epoch (storeByte b s.rx) = n := (declaredLength_of_read? s.epoch h1 h2).trans hn.symm
  have zero (h0 : n = 0) := rxOnByte_hdr_zero hdr last (len.trans h0)
  refine ⟨?body, ?data, ?ok, ?recv⟩
  case body =>
    intro hne
    rw [← len]
    exact rxTurn_byte busy hopen hin (fun _ => room)
      ((rxOnByte_hdr_last hdr last).trans (headerComplete_of_ne_zero (len.trans_ne hne)))
  case data =>
    exact fun h0 bad => rxTurn_byte busy hopen hin (fun _ => room) ((zero h0).trans (validate_data bad))
  case ok =>
    exact fun h0 ok read => rxTurn_byte busy hopen hin (fun _ => room) ((zero h0).trans (validate_read_ok ok read))
  case recv =>
    exact fun h0 ok recv => rxTurn_byte busy hopen hin (fun _ => room) ((zero h0).trans (validate_recv_ok ok recv))

/-- Settles O21: a byte is stored, and where it is the last of the body the frame is validated; a tick is that of a
phase that expires with `LENGTH`. -/
theorem bodyStep : Obligations.BodyStep := by
  intro s a rest body hopen hin
  have busy : s.rx.state ≠ .idle := by simp [body]
  refine ⟨?_, rxTurn_tick_expires busy hopen hin (rxOnTick_body body),
    rxTurn_tick_counts busy hopen hin (rxOnTick_body body)⟩
  rintro b rfl room
  have last (h : (storeByte b s.rx).need = 0) := rxOnByte_body_last (epoch := s.epoch) body h
  refine ⟨?more, ?data, ?ok, ?recv⟩
  case more =>
    exact fun more => rxTurn_byte busy hopen hin (fun _ => room) (rxOnByte_body_more body more)
  case data =>
    exact fun h0 bad => rxTurn_byte busy hopen hin (fun _ => room) ((last h0).trans (validate_data bad))
  case ok =>
    exact fun h0 ok read => rxTurn_byte busy hopen hin (fun _ => room) ((last h0).trans (validate_read_ok ok read))
  case recv =>
    exact fun h0 ok recv => rxTurn_byte busy hopen hin (fun _ => room) ((last h0).trans (validate_recv_ok ok recv))

end Sys2Proof.Machine
end
section
/-! Noise before a frame (42_frame_reader.md R174, R191): it holds a non-strict READ in HUNT, where the frame finds
it. -/

namespace Sys2Proof.Machine

/-- Noise that never lets the idle timeout expire, `run` ticks of which have passed since the last byte, moves the timer
of a non-strict reader in HUNT and nothing else of the unit. -/
theorem rxTurns_noise (noise rest : List SrcAnswer) {s : State} {run : Nat} (hunt : s.rx.state = .hunt)
    (lax : s.rx.strict = false) (hopen : s.sourceOpen = true) (hrun : s.rx.tmr.toNat + run = s.rx.tidle.toNat)
    (hnoise : noiseWithin s.rx.tidle.toNat run noise = true) (hin : s.incoming = noise ++ rest) :
    ∃ v : Ticks, rxTurns noise.length s = .next ((s.setIncoming rest).setRx { s.rx with tmr := v }) := by
  have busy : s.rx.state ≠ .idle := by simp [hunt]
  induction noise generalizing s run with
  | nil =>
    obtain rfl : s.incoming = rest := hin
    exact ⟨s.rx.tmr, rfl⟩
  | cons a noise ih =>
    cases a with
    | tick =>
      simp only [noiseWithin, Bool.and_eq_true, decide_eq_true_eq] at hnoise
      obtain ⟨hle, hnoise⟩ := hnoise
      obtain ⟨h0, -⟩ | ⟨hne, -, htmr⟩ := countTick_cases .timeout s.rx
      · have hzero : s.rx.tmr.toNat = 0 := by simp [h0]
        omega
      · have turn := rxTurn_tick_counts busy hopen hin (rxOnTick_hunt hunt) rfl hne
        rw [List.length_cons, rxTurns_succ _ turn]
        exact ih hunt lax hopen (by simp only [State.setRx_rx]; omega) hnoise rfl busy
    | byte b =>
      simp only [noiseWithin, Bool.and_eq_true, bne_iff_ne] at hnoise
      obtain ⟨hb, hnoise⟩ := hnoise
      have turn := rxTurn_byte busy hopen hin (absurd hunt) (rxOnByte_hunt_noise hunt hb lax)
      rw [List.length_cons, rxTurns_succ _ turn]
      exact ih hunt lax hopen (Nat.add_zero _) hnoise rfl busy

/-- Settles O26: the noise leaves the READ in HUNT as issued but for its timer, and there the frame is taken. -/
theorem resynchronisesOnNoise : Obligations.ResynchronisesOnNoise := by
  intro s B noise answers rest idle hopen hframe hnoise hdel hin
  obtain ⟨v, hrun⟩ := rxTurns_noise noise (answers ++ rest) (s := s.setRx (readIssue false false s.rx.accept)) rfl rfl
    hopen (Nat.add_zero _) hnoise hin
  obtain ⟨t, hrun', hrest, hvalid⟩ := rxTurns_of_deliversFrame
    (s := (s.setIncoming (answers ++ rest)).setRx { readIssue false false s.rx.accept with tmr := v })
    rfl rfl hopen hframe hdel rfl
  obtain ⟨-, -, -, hfold⟩ := (acceptedFrame_iff B).1 hframe
  exact ⟨_, t, exec_read_issued false idle hopen, (rxTurns_trans hrun).trans hrun', hvalid.idle,
    hvalid.result.trans (if_pos hfold), hvalid.accumulated, hrest⟩

end Sys2Proof.Machine
end
section
/-! READ as a state machine and READ as a function of the answers (42_frame_reader.md R188, 20_memory.md R67), phase by
phase. -/

namespace Sys2Proof.Machine

/-! How a READ in flight goes on. -/

/-- The READ in flight in `s` ends as `e` says, and not before. -/
def State.ReadEndsAs (s : State) (e : ReadEnd) : Prop :=
  ∃ (k : Nat) (t : State), rxTurns k s = .next t ∧ t.rx.state = .idle ∧ t.rx.result = e.result ∧
    t.rx.accumulated = some e.bytes ∧ t.incoming = e.rest ∧
    ∀ j, j < k → ∃ m : State, rxTurns j s = .next m ∧ m.rx.state ≠ .idle

/-- The READ in flight in `s` uses up the listed answers and has not ended. -/
def State.ReadRunsOn (s : State) : Prop :=
  ∃ t : State, rxTurns s.incoming.length s = .next t ∧ t.rx.state ≠ .idle ∧ t.incoming = []

/-- The READ in flight in `s` does what the document's function gives for the listed answers. -/
def State.ReadGives (s : State) : Option ReadEnd → Prop
  | some e => s.ReadEndsAs e
  | none => s.ReadRunsOn

theorem State.ReadEndsAs.of_turn {s m : State} {e : ReadEnd} (h : m.ReadEndsAs e) (busy : s.rx.state ≠ .idle)
    (turn : rxTurn s = .next m) : s.ReadEndsAs e := by
  obtain ⟨k, t, hrun, hidle, hresult, hacc, hrest, hbefore⟩ := h
  refine ⟨k + 1, t, (rxTurns_succ k turn).trans hrun, hidle, hresult, hacc, hrest, fun j hj => ?_⟩
  cases j with
  | zero => exact ⟨s, rfl, busy⟩
  | succ j =>
    obtain ⟨m', hrun', hbusy⟩ := hbefore j (by omega)
    exact ⟨m', (rxTurns_succ j turn).trans hrun', hbusy⟩

/-- What a READ gives it gives already before a turn that takes an answer. -/
theorem State.ReadGives.of_turn {s : State} {a : SrcAnswer} {rest : List SrcAnswer} {u : RxUnit} {o : Option ReadEnd}
    (h : ((s.setIncoming rest).setRx u).ReadGives o) (busy : s.rx.state ≠ .idle) (hin : s.incoming = a :: rest)
    (turn : rxTurn s = .next ((s.setIncoming rest).setRx u)) : s.ReadGives o := by
  cases o with
  | some e => exact State.ReadEndsAs.of_turn h busy turn
  | none =>
    obtain ⟨t, hrun, hbusy, hnil⟩ := h
    exact ⟨t, by rw [hin, List.length_cons, rxTurns_succ _ turn]; exact hrun, hbusy, hnil⟩

theorem readGives_of_ended {s : State} {e : ReadEnd} (idle : s.rx.state = .idle) (result : s.rx.result = e.result)
    (accumulated : s.rx.accumulated = some e.bytes) (rest : s.incoming = e.rest) : s.ReadGives (some e) :=
  ⟨0, s, rfl, idle, result, accumulated, rest, nofun⟩

theorem readGives_none {s : State} (busy : s.rx.state ≠ .idle) (hin : s.incoming = []) : s.ReadGives none :=
  ⟨s, by rw [hin]; rfl, busy, hin⟩

/-! The phases of a frame: one `readExactly` call each, and what follows it. -/

/-- Reads the `k` bytes that `frame` lacks within the timeout `t`, and goes on with `cont`. -/
def readPhase (k t : Nat) (as : List SrcAnswer) (frame : List Byte)
    (cont : List Byte → List SrcAnswer → Option ReadEnd) : Option ReadEnd :=
  match readExactly k t as with
  | none => none
  | some (got, rest) => if got.length < k then some ⟨.length, frame ++ got, rest⟩ else cont (frame ++ got) rest

/-- The end of a READ that has the whole frame. -/
def readVerdict (frame : List Byte) (rest : List SrcAnswer) : Option ReadEnd :=
  some ⟨if fold frame 0 = lrcSeed then .ok else .data, frame, rest⟩

/-- The body, once `frame` holds the header. -/
def readBody (tf : Nat) (frame : List Byte) (as : List SrcAnswer) : Option ReadEnd :=
  readPhase (declaredSize frame - 4) tf as frame readVerdict

/-- The document's function reads the header and then the body. -/
theorem readFrameRest_eq_readPhase (tf : Nat) (as : List SrcAnswer) :
    readFrameRest tf as = readPhase 3 tf as [stx] (readBody tf) := by
  unfold readFrameRest readPhase
  cases readExactly 3 tf as with
  | none => rfl
  | some got =>
    obtain ⟨header, as1⟩ := got
    by_cases hshort : header.length < 3
    · simp only [if_pos hshort]
      rfl
    · have hsize : declaredSize (stx :: header) - 4 = lengthField (header.getD 0 0) (header.getD 1 0) :=
        Nat.add_sub_cancel ..
      simp only [if_neg hshort, List.singleton_append, readBody, readPhase, hsize]
      cases readExactly (lengthField (header.getD 0 0) (header.getD 1 0)) tf as1 with
      | none => rfl
      | some got =>
        obtain ⟨body, as2⟩ := got
        simp only [readVerdict, List.cons_append]
        split_ifs <;> rfl

section

variable (k t : Nat) (as : List SrcAnswer) (b : Byte) (frame : List Byte)
  (cont : List Byte → List SrcAnswer → Option ReadEnd)

theorem readPhase_zero : readPhase 0 t as frame cont = cont frame as := by
  simp [readPhase, readExactly]

theorem readPhase_nil : readPhase (k + 1) t [] frame cont = none := rfl

theorem readPhase_byte :
    readPhase (k + 1) t (.byte b :: as) frame cont = readPhase k t as (frame ++ [b]) cont := by
  simp only [readPhase, readExactly]
  cases readExactly k t as with
  | none => rfl
  | some got => simp

theorem readPhase_tick_zero : readPhase (k + 1) 0 (.tick :: as) frame cont = some ⟨.length, frame, as⟩ := by
  simp [readPhase, readExactly]

theorem readPhase_tick_succ :
    readPhase (k + 1) (t + 1) (.tick :: as) frame cont = readPhase (k + 1) t as frame cont := rfl

end

/-- A phase has ended: with a frame that lacks its body, whose timer is full, or with a whole frame, validated. -/
structure State.PhaseEnded (s : State) (tf : Ticks) (frame : List Byte) : Prop where
  sourceOpen : s.sourceOpen = true
  holds : (frame.length ≠ declaredSize frame ∧ s.rx.InFrame frame ∧ s.rx.tmr = tf) ∨
    (frame.length = declaredSize frame ∧ s.rx.Validated frame)

/-- A reader inside a frame gives what `readPhase` gives for the bytes it lacks, if it goes on as `cont` does. -/
theorem readGives_readPhase {cont : List Byte → List SrcAnswer → Option ReadEnd} {s : State} {frame : List Byte}
    (as : List SrcAnswer) (h : s.rx.InFrame frame) (hopen : s.sourceOpen = true) (hin : s.incoming = as)
    (hcont : ∀ (bytes : List Byte) (t : State), bytes.length = s.rx.need.toNat →
      t.PhaseEnded s.rx.tframe (frame ++ bytes) → t.ReadGives (cont (frame ++ bytes) t.incoming)) :
    s.ReadGives (readPhase s.rx.need.toNat s.rx.tmr.toNat as frame cont) := by
  have busy := h.ne_idle
  induction as generalizing s frame with
  | nil =>
    obtain ⟨k, hk⟩ := Nat.exists_eq_add_one.2 h.need_pos
    rw [hk, readPhase_nil]
    exact readGives_none busy hin
  | cons a as ih =>
    obtain ⟨k, hk⟩ := Nat.exists_eq_add_one.2 h.need_pos
    cases a with
    | tick =>
      obtain ⟨h0, -⟩ | ⟨hne, -, htmr⟩ := countTick_cases .length s.rx
      · have hzero : s.rx.tmr.toNat = 0 := by simp [h0]
        rw [hk, hzero, readPhase_tick_zero]
        refine .of_turn ?_ busy hin (rxTurn_tick_expires busy hopen hin h.rxOnTick_eq rfl h0)
        exact readGives_of_ended rfl rfl h.accumulated rfl
      · rw [hk, ← htmr, readPhase_tick_succ, ← hk]
        refine .of_turn ?_ busy hin (rxTurn_tick_counts busy hopen hin h.rxOnTick_eq rfl hne)
        exact ih (h.setTmr _) hopen rfl hcont busy
    | byte b =>
      refine .of_turn ?_ busy hin (rxTurn_byte busy hopen hin (fun _ => h.room) rfl)
      rw [hk, readPhase_byte]
      by_cases hlast : s.rx.need.toNat = 1
      · obtain rfl : k = 0 := by omega
        rw [readPhase_zero]
        refine hcont [b] _ hlast.symm ⟨hopen, ?_⟩
        exact (h.rxOnByte_of_last s.epoch b hlast).imp id And.right
      · rw [h.rxOnByte_of_need s.epoch b hlast]
        have hneed : (storeByte b s.rx).need.toNat = k := by
          rw [storeByte_need b h.need_pos, hk]
          rfl
        rw [← hneed]
        refine ih (s := (s.setIncoming as).setRx (storeByte b s.rx)) (h.after_storeByte b hlast) hopen rfl ?_ busy
        intro bytes t hlen hended
        rw [List.append_assoc] at hended ⊢
        exact hcont (b :: bytes) t (by simp only [List.length_cons, hlen, State.setRx_rx, hneed, hk]) hended

/-- The whole frame, validated, is what the function gives. -/
theorem RxUnit.Validated.readGives_readVerdict {s : State} {frame : List Byte} (h : s.rx.Validated frame) :
    s.ReadGives (readVerdict frame s.incoming) :=
  readGives_of_ended h.idle h.result h.accumulated rfl

/-- After the header, the reader gives what the function gives for the body, which may be empty. -/
theorem State.PhaseEnded.readGives_readBody {s : State} {tf : Ticks} {frame : List Byte} (h : s.PhaseEnded tf frame)
    (h4 : frame.length = 4) : s.ReadGives (readBody tf.toNat frame s.incoming) := by
  obtain ⟨hopen, ⟨-, hframe, rfl⟩ | ⟨hwhole, hvalid⟩⟩ := h
  · have hneed := hframe.need_of_header (by omega)
    rw [readBody, show declaredSize frame - 4 = s.rx.need.toNat by omega]
    refine readGives_readPhase _ hframe hopen rfl fun bytes t hlen hended => ?_
    have hwhole : (frame ++ bytes).length = declaredSize (frame ++ bytes) := by
      rw [declaredSize_append (by omega), List.length_append]
      omega
    obtain ⟨hmore, -⟩ | ⟨-, hvalid⟩ := hended.holds
    · exact absurd hwhole hmore
    · exact hvalid.readGives_readVerdict
  · rw [readBody, show declaredSize frame - 4 = 0 by omega, readPhase_zero]
    exact hvalid.readGives_readVerdict

/-- After the start byte, the reader gives what the function gives. -/
theorem readGives_readFrameRest {s : State} (as : List SrcAnswer) (h : s.rx.InFrame [stx]) (hopen : s.sourceOpen = true)
    (hin : s.incoming = as) (hneed : s.rx.need.toNat = 3) (htmr : s.rx.tmr = s.rx.tframe) :
    s.ReadGives (readFrameRest s.rx.tframe.toNat as) := by
  have hheader := readGives_readPhase (cont := readBody s.rx.tframe.toNat) as h hopen hin fun bytes t hlen hended =>
    hended.readGives_readBody (by rw [List.length_append, hlen, hneed]; rfl)
  rwa [hneed, htmr, ← readFrameRest_eq_readPhase] at hheader

/-! HUNT: the loop of `read`. -/

/-- One round of the loop of `read`, with `t'` ticks left in it, and the rounds after it. -/
def readRound (t : Nat) (strict : Bool) (tf fuel t' : Nat) (as : List SrcAnswer) : Option ReadEnd :=
  match readExactly 1 t' as with
  | none => none
  | some ([], as1) => some ⟨.timeout, [], as1⟩
  | some (b :: _, as1) =>
    if b = stx then readFrameRest tf as1
    else if strict then some ⟨.start, [b], as1⟩
    else readLoop t strict tf fuel as1

section

variable (t : Nat) (strict : Bool) (tf fuel t' : Nat) (as : List SrcAnswer) (b : Byte)

theorem readLoop_succ : readLoop t strict tf (fuel + 1) as = readRound t strict tf fuel t as := rfl

theorem readRound_nil : readRound t strict tf fuel t' [] = none := rfl

theorem readRound_byte :
    readRound t strict tf fuel t' (.byte b :: as) =
      if b = stx then readFrameRest tf as
      else if strict then some ⟨.start, [b], as⟩
      else readLoop t strict tf fuel as := by
  simp [readRound, readExactly]

theorem readRound_tick_zero : readRound t strict tf fuel 0 (.tick :: as) = some ⟨.timeout, [], as⟩ := rfl

theorem readRound_tick_succ :
    readRound t strict tf fuel (t' + 1) (.tick :: as) = readRound t strict tf fuel t' as := rfl

end

/-- A reader in HUNT has no result yet and has stored nothing. -/
structure RxUnit.Hunting (u : RxUnit) : Prop where
  hunt : u.state = .hunt
  result : u.result = .none
  cnt : u.cnt = 0

theorem RxUnit.Hunting.accumulated {u : RxUnit} (h : u.Hunting) : u.accumulated = some [] := by
  rw [RxUnit.accumulated, h.cnt]
  rfl

theorem RxUnit.Hunting.setTmr {u : RxUnit} (h : u.Hunting) (v : Ticks) : RxUnit.Hunting { u with tmr := v } :=
  ⟨h.hunt, h.result, h.cnt⟩

/-- The byte that ends a strict READ is its context (60_exceptions.md R242). -/
theorem huntStrict_accumulated (b : Byte) (u : RxUnit) : (huntStrict b u).accumulated = some [b] :=
  Memory.firstBytes?_write_succ (m := u.buf) (n := 0) (bytes := []) rfl b

/-- A reader in HUNT gives what the loop gives from the round it is in. -/
theorem readGives_readRound {s : State} {fuel : Nat} (as : List SrcAnswer) (h : s.rx.Hunting)
    (hopen : s.sourceOpen = true) (hin : s.incoming = as) (hfuel : as.length ≤ fuel) :
    s.ReadGives (readRound s.rx.tidle.toNat s.rx.strict s.rx.tframe.toNat fuel s.rx.tmr.toNat as) := by
  have hunt := h.hunt
  have busy : s.rx.state ≠ .idle := by simp [hunt]
  induction as generalizing s fuel with
  | nil => exact readGives_none busy hin
  | cons a as ih =>
    rw [List.length_cons] at hfuel
    cases a with
    | tick =>
      obtain ⟨h0, -⟩ | ⟨hne, -, htmr⟩ := countTick_cases .timeout s.rx
      · have hzero : s.rx.tmr.toNat = 0 := by simp [h0]
        rw [hzero, readRound_tick_zero]
        refine .of_turn ?_ busy hin (rxTurn_tick_expires busy hopen hin (rxOnTick_hunt hunt) rfl h0)
        exact readGives_of_ended rfl rfl h.accumulated rfl
      · rw [← htmr, readRound_tick_succ]
        refine .of_turn ?_ busy hin (rxTurn_tick_counts busy hopen hin (rxOnTick_hunt hunt) rfl hne)
        exact ih (h.setTmr _) hopen rfl (by omega) hunt busy
    | byte b =>
      have turn {u : RxUnit} := rxTurn_byte (u := u) busy hopen hin (absurd hunt)
      rw [readRound_byte]
      split
      next hb =>
        subst hb
        refine .of_turn ?_ busy hin (turn (rxOnByte_hunt_stx hunt))
        exact readGives_readFrameRest as (huntStart_inFrame h.result) hopen rfl rfl rfl
      next hb =>
        split
        next strict =>
          refine .of_turn ?_ busy hin (turn (rxOnByte_hunt_strict hunt hb strict))
          exact readGives_of_ended rfl rfl (huntStrict_accumulated b s.rx) rfl
        next lax =>
          obtain ⟨fuel, rfl⟩ : ∃ n, fuel = n + 1 := Nat.exists_eq_add_one.2 (by omega)
          refine .of_turn ?_ busy hin (turn (rxOnByte_hunt_noise hunt hb (Bool.eq_false_iff.2 lax)))
          rw [readLoop_succ]
          exact ih (h.setTmr _) hopen rfl (by omega) hunt busy

/-- A READ just issued gives what the document's function gives (42_frame_reader.md R188). -/
theorem readGives_readFunction {s : State} (strict : Bool) (hopen : s.sourceOpen = true) :
    (s.setRx (readIssue false strict s.rx.accept)).ReadGives
      (readFunction s.rx.regTidle.toNat strict s.rx.regTframe.toNat s.incoming) :=
  readGives_readRound (s := s.setRx (readIssue false strict s.rx.accept)) s.incoming ⟨rfl, rfl, rfl⟩ hopen rfl le_rfl

/-- Settles O25: the two agree in HUNT round by round, and in the header and the body answer by answer. -/
theorem readMatchesItsFunction : Obligations.ReadMatchesItsFunction := by
  intro s strict idle hopen
  have hgives := readGives_readFunction strict hopen
  refine ⟨_, exec_read_issued strict idle hopen, fun e he => ?_, fun hnone => ?_⟩
  · rw [he] at hgives
    exact hgives
  · rw [hnone] at hgives
    exact hgives

end Sys2Proof.Machine
end
section
/-! RECV next to the non-strict READ (42_frame_reader.md R186): turn by turn their RX units differ in `rx_recv` alone,
and once the READ has ended `OK` also in the payload view. -/

namespace Sys2Proof.Machine

/-- What the issue of a non-strict READ sets and none of its RX steps changes. -/
def RxUnit.LaxRead (u : RxUnit) : Prop := u.strict = false ∧ u.recv = false ∧ u.cmdErr = false ∧ u.pvalid = false

/-- The same registers with `rx_recv` = 1 (42_frame_reader.md R186). -/
def RxUnit.withRecv (u : RxUnit) : RxUnit := { u with recv := true }

/-- Where the RX unit of a non-strict READ is `u`, that of a RECV on the same answers is `v`. -/
inductive RecvPair (u v : RxUnit) : Prop
  | running (lax : u.LaxRead) (result : u.result = .none) (eq : v = u.withRecv)
  | ok (lax : u.LaxRead) (idle : u.state = .idle) (result : u.result = .ok) (eq : v = (payloadView u).withRecv)
  | failed (lax : u.LaxRead) (idle : u.state = .idle) (result : u.result ≠ .ok) (noStart : u.result ≠ .start)
      (eq : v = u.withRecv)

theorem RecvPair.issue (u : RxUnit) : RecvPair (readIssue false false u.accept) (readIssue true false u.accept) :=
  .running ⟨rfl, rfl, rfl, rfl⟩ rfl rfl

theorem RecvPair.state_eq {u v : RxUnit} (h : RecvPair u v) : v.state = u.state := by
  cases h <;> subst v <;> rfl

theorem RecvPair.cnt_eq {u v : RxUnit} (h : RecvPair u v) : v.cnt = u.cnt := by
  cases h <;> subst v <;> rfl

theorem RecvPair.result_eq {u v : RxUnit} (h : RecvPair u v) : v.result = u.result := by
  cases h <;> subst v <;> rfl

/-! One answer, taken by both. -/

section

variable {u : RxUnit}

theorem recvPair_validate (lax : u.LaxRead) : RecvPair (validate u) (validate u.withRecv) := by
  have ⟨_, read, _, _⟩ := lax
  by_cases hlrc : u.lrc = lrcSeed
  · rw [validate_read_ok hlrc read, validate_recv_ok (u := u.withRecv) hlrc rfl]
    exact .ok lax rfl rfl rfl
  · rw [validate_data hlrc, validate_data (u := u.withRecv) hlrc]
    exact .failed lax rfl nofun nofun rfl

theorem recvPair_headerComplete (epoch : Nat) (lax : u.LaxRead) (result : u.result = .none) :
    RecvPair (headerComplete epoch u) (headerComplete epoch u.withRecv) := by
  by_cases hlen : declaredLength epoch u = 0
  · rw [headerComplete_of_zero hlen, headerComplete_of_zero (u := u.withRecv) hlen]
    exact recvPair_validate (u := { u with len := 0 }) lax
  · rw [headerComplete_of_ne_zero hlen, headerComplete_of_ne_zero (u := u.withRecv) hlen]
    exact .running lax result rfl

theorem recvPair_countTick {kind : RxResult} (lax : u.LaxRead) (result : u.result = .none) (notOk : kind ≠ .ok)
    (noStart : kind ≠ .start) : RecvPair (countTick kind u) (countTick kind u.withRecv) := by
  by_cases htmr : u.tmr = 0
  · rw [countTick, countTick, if_pos htmr, if_pos (show u.withRecv.tmr = 0 from htmr)]
    exact .failed lax rfl notOk noStart rfl
  · rw [countTick, countTick, if_neg htmr, if_neg (show u.withRecv.tmr ≠ 0 from htmr)]
    exact .running lax result rfl

/-- The phase alone says which error a tick can raise; it is not `OK`, and not `START`. -/
theorem rxOnTick_of_busy (busy : u.state ≠ .idle) :
    ∃ kind : RxResult, kind ≠ .ok ∧ kind ≠ .start ∧
      ∀ v : RxUnit, v.state = u.state → rxOnTick v = countTick kind v := by
  cases hs : u.state with
  | idle => exact absurd hs busy
  | hunt => exact ⟨.timeout, nofun, nofun, fun _ => rxOnTick_hunt⟩
  | hdr => exact ⟨.length, nofun, nofun, fun _ => rxOnTick_hdr⟩
  | body => exact ⟨.length, nofun, nofun, fun _ => rxOnTick_body⟩

theorem recvPair_tick (lax : u.LaxRead) (result : u.result = .none) (busy : u.state ≠ .idle) :
    RecvPair (rxOnTick u) (rxOnTick u.withRecv) := by
  obtain ⟨kind, notOk, noStart, hphase⟩ := rxOnTick_of_busy busy
  rw [hphase u rfl, hphase u.withRecv rfl]
  exact recvPair_countTick lax result notOk noStart

theorem recvPair_byte (epoch : Nat) (b : Byte) (lax : u.LaxRead) (result : u.result = .none) (busy : u.state ≠ .idle) :
    RecvPair (rxOnByte epoch b u) (rxOnByte epoch b u.withRecv) := by
  have ⟨strict, _, _, _⟩ := lax
  cases hs : u.state with
  | idle => exact absurd hs busy
  | hunt =>
    by_cases hb : b = stx
    · rw [hb, rxOnByte_hunt_stx hs, rxOnByte_hunt_stx (u := u.withRecv) hs]
      exact .running lax result rfl
    · rw [rxOnByte_hunt_noise hs hb strict, rxOnByte_hunt_noise (u := u.withRecv) hs hb strict]
      exact .running lax result rfl
  | hdr =>
    by_cases hneed : (storeByte b u).need = 0
    · rw [rxOnByte_hdr_last hs hneed, rxOnByte_hdr_last (u := u.withRecv) hs hneed]
      exact recvPair_headerComplete (u := storeByte b u) epoch lax result
    · rw [rxOnByte_hdr_more hs hneed, rxOnByte_hdr_more (u := u.withRecv) hs hneed]
      exact .running lax result rfl
  | body =>
    by_cases hneed : (storeByte b u).need = 0
    · rw [rxOnByte_body_last hs hneed, rxOnByte_body_last (u := u.withRecv) hs hneed]
      exact recvPair_validate (u := storeByte b u) lax
    · rw [rxOnByte_body_more hs hneed, rxOnByte_body_more (u := u.withRecv) hs hneed]
      exact .running lax result rfl

theorem RecvPair.after_answer {v : RxUnit} (epoch : Nat) (a : SrcAnswer) (h : RecvPair u v) (busy : u.state ≠ .idle) :
    RecvPair (rxOn epoch a u) (rxOn epoch a v) := by
  cases h with
  | running lax result eq =>
    subst eq
    cases a with
    | tick => exact recvPair_tick lax result busy
    | byte b => exact recvPair_byte epoch b lax result busy
  | ok _ idle => exact absurd idle busy
  | failed _ idle => exact absurd idle busy

end

/-! Turns. -/

theorem srcRead_setRx (s : State) (v : RxUnit) : srcRead (s.setRx v) = ((srcRead s).1, (srcRead s).2.setRx v) := by
  cases h : s.incoming with
  | nil => rw [srcRead_nil h, srcRead_nil (s := s.setRx v) h]; rfl
  | cons a rest => rw [srcRead_cons h, srcRead_cons (s := s.setRx v) h]; rfl

/-- A busy unit's turn completes on whatever the source answers, listed or not, if a stored byte has its index. -/
theorem rxTurn_of_busy {s : State} (busy : s.rx.state ≠ .idle) (hopen : s.sourceOpen = true)
    (room : ∀ b, (srcRead s).1 = .byte b → s.rx.state ≠ .hunt → s.rx.cnt.toNat < Config.rxBufSize) :
    rxTurn s = .next ((srcRead s).2.setRx (rxOn s.epoch (srcRead s).1 s.rx)) := by
  unfold rxTurn rxApply
  rw [if_neg busy, if_neg (by simp [hopen])]
  cases ha : (srcRead s).1 with
  | tick => simp [rxOn]
  | byte b =>
    have hcond : ¬(s.rx.state ≠ .hunt ∧ Config.rxBufSize ≤ s.rx.cnt.toNat) :=
      fun ⟨hs, hc⟩ => absurd (room b ha hs) (by omega)
    simp [rxOn, hcond]

theorem RecvPair.after_turn {s t : State} {v : RxUnit} (h : RecvPair s.rx v) (turn : rxTurn s = .next t) :
    ∃ v' : RxUnit, rxTurn (s.setRx v) = .next (t.setRx v') ∧ RecvPair t.rx v' := by
  obtain ⟨idle, rfl⟩ | ⟨busy, hopen, rfl, room⟩ := rxTurn_cases turn
  · exact ⟨v, rxTurn_of_idle (h.state_eq.trans idle), h⟩
  · have turn' := rxTurn_of_busy (s := s.setRx v) (h.state_eq.trans_ne busy) hopen (by
      rw [srcRead_setRx, State.setRx_rx, h.state_eq, h.cnt_eq]
      exact room)
    rw [srcRead_setRx] at turn'
    exact ⟨_, turn', h.after_answer s.epoch _ busy⟩

theorem RecvPair.after_turns {n : Nat} {s t : State} {v : RxUnit} (h : RecvPair s.rx v) (run : rxTurns n s = .next t) :
    ∃ v' : RxUnit, rxTurns n (s.setRx v) = .next (t.setRx v') ∧ RecvPair t.rx v' := by
  induction n generalizing s v with
  | zero =>
    cases run
    exact ⟨v, rfl, h⟩
  | succ n ih =>
    obtain ⟨m, turn, run⟩ := rxTurns_succ_eq_next run
    obtain ⟨v', turn', h'⟩ := h.after_turn turn
    obtain ⟨v'', run', h''⟩ := ih h' run
    exact ⟨v'', (rxTurns_succ n turn').trans run', h''⟩

theorem exec_recv_of_busy {s : State} (busy : s.rx.state ≠ .idle) : exec .recv s = .next (s.setRx s.rx.reject) :=
  execRecv_eq_next.2 ⟨fun idle => absurd idle busy, rxCommand_of_busy _ busy⟩

theorem exec_recv_issued {s : State} (idle : s.rx.state = .idle) (hopen : s.sourceOpen = true) :
    exec .recv s = .next (s.setRx (readIssue true false s.rx.accept)) :=
  execRecv_eq_next.2 ⟨fun _ => hopen, rxCommand_of_idle _ idle⟩

/-! What the pair says at the end. -/

/-- Where the READ has ended `OK`, the RECV's unit is the READ's after PARSE, but for `rx_recv`. -/
theorem RecvPair.parse_of_ok {t : State} {v : RxUnit} (h : RecvPair t.rx v) (hok : t.rx.result = .ok) :
    ∃ t' : State, exec .parse t = .next t' ∧ t.setRx v = t'.setRx t'.rx.withRecv := by
  cases h with
  | running _ result => exact nomatch result.symm.trans hok
  | ok lax idle _ eq =>
    obtain ⟨-, -, hcmd, -⟩ := lax
    have haccept : t.rx.accept = t.rx := by rw [RxUnit.accept, ← hcmd]
    refine ⟨_, rxCommand_of_idle payloadView idle, ?_⟩
    rw [haccept, eq]
    rfl
  | failed _ _ result => exact absurd hok result

theorem RecvPair.eq_of_ne_ok {u v : RxUnit} (h : RecvPair u v) (hok : u.result ≠ .ok) :
    v = u.withRecv ∧ v.pvalid = false := by
  cases h with
  | running lax _ eq =>
    obtain ⟨-, -, -, hpvalid⟩ := lax
    exact ⟨eq, eq ▸ hpvalid⟩
  | ok _ _ result => exact absurd result hok
  | failed lax _ _ _ eq =>
    obtain ⟨-, -, -, hpvalid⟩ := lax
    exact ⟨eq, eq ▸ hpvalid⟩

theorem RecvPair.result_ne_start {u v : RxUnit} (h : RecvPair u v) : v.result ≠ .start := by
  rw [h.result_eq]
  cases h with
  | running _ result => rw [result]; nofun
  | ok _ _ result => rw [result]; nofun
  | failed _ _ _ noStart => exact noStart

/-- Settles O18: the pair of units holds at issue and every turn keeps it. -/
theorem recvIsReadThenParse : Obligations.RecvIsReadThenParse := by
  refine fun s n => ⟨rfl, exec_recv_of_busy, fun idle hopen =>
    ⟨_, _, exec_read_issued false idle hopen, exec_recv_issued idle hopen, fun t1 run => ?_⟩⟩
  obtain ⟨v, run', h⟩ := (RecvPair.issue s.rx).after_turns run
  refine ⟨t1.setRx v, run', h.result_ne_start, h.parse_of_ok, fun hok => ?_⟩
  obtain ⟨eq, hpvalid⟩ := h.eq_of_ne_ok hok
  exact ⟨congrArg t1.setRx eq, hpvalid⟩

end Sys2Proof.Machine
end
section
/-! Operations in flight (60_exceptions.md R264): no turn but a unit's own and reset changes what a busy unit is doing. -/

namespace Sys2Proof.Machine

/-- From `s` to `t` the operations in flight stand: of a busy TX unit only the command-error flag can have changed, and
of a busy RX unit only that flag and the host's two registers, which the unit has latched (10_state.md R23, R43). -/
structure InFlightStands (s t : State) : Prop where
  tx : s.tx.state = .emit → t.tx = { s.tx with cmdErr := t.tx.cmdErr }
  rx : s.rx.state ≠ .idle →
    t.rx = { s.rx with cmdErr := t.rx.cmdErr, regTidle := t.rx.regTidle, regTframe := t.rx.regTframe }

variable {s t : State}

theorem InFlightStands.of_units_eq (hrx : t.rx = s.rx) (htx : t.tx = s.tx) : InFlightStands s t :=
  ⟨fun _ => htx ▸ rfl, fun _ => hrx ▸ rfl⟩

/-- Whatever an idle TX unit becomes, no operation is disturbed. -/
theorem InFlightStands.setTx_of_idle (idle : s.tx.state = .idle) (u : TxUnit) : InFlightStands s (s.setTx u) :=
  ⟨fun emit => (nomatch idle.symm.trans emit), fun _ => rfl⟩

/-- Whatever an idle RX unit becomes, no operation is disturbed. -/
theorem InFlightStands.setRx_of_idle (idle : s.rx.state = .idle) (u : RxUnit) : InFlightStands s (s.setRx u) :=
  ⟨fun _ => rfl, fun busy => absurd idle busy⟩

theorem rxCommand_inFlightStands {issue : RxUnit → RxUnit} (h : rxCommand issue s = .next t) : InFlightStands s t := by
  obtain ⟨-, hr⟩ | ⟨idle, hr⟩ := rxCommand_cases issue s <;> rw [hr] at h <;> cases h
  · exact ⟨fun _ => rfl, fun _ => rfl⟩
  · exact .setRx_of_idle idle _

theorem txCommand_inFlightStands {issue : TxUnit → TxUnit} (h : txCommand issue s = .next t) : InFlightStands s t := by
  obtain ⟨-, hr⟩ | ⟨idle, hr⟩ := txCommand_cases issue s <;> rw [hr] at h <;> cases h
  · exact ⟨fun _ => rfl, fun _ => rfl⟩
  · exact .setTx_of_idle idle _

/-- A command leaves the operations in flight alone (60_exceptions.md R247 (3), (4)). -/
theorem exec_inFlightStands {i : Instr} (cmd : i.port = .cmd) (h : exec i s = .next t) : InFlightStands s t := by
  cases i with
  | nop => cases h; exact .of_units_eq rfl rfl
  | checksum => exact txCommand_inFlightStands h
  | build => exact txCommand_inFlightStands h
  | send => exact txCommand_inFlightStands (execSend_eq_next.1 h).2
  | parse => exact rxCommand_inFlightStands h
  | read strict => exact rxCommand_inFlightStands (execRead_eq_next.1 h).2
  | recv => exact rxCommand_inFlightStands (execRecv_eq_next.1 h).2
  | reservedCmd op strict zero =>
    rw [exec_reservedCmd] at h
    cases h
    exact ⟨fun _ => rfl, fun _ => rfl⟩
  | frame payload => exact nomatch cmd
  | stxHunt => exact nomatch cmd

/-- A command byte never decodes to a row of the wire (30_encoding.md R104). -/
theorem decodeCmd_port (w : Byte) : (decodeCmd w).port = .cmd := by
  unfold decodeCmd
  dsimp only
  split
  · rfl
  · split <;> rfl

/-! Host writes. -/

/-- The registers that hold the TX unit's operands (10_state.md R34). -/
def TxOperand (r : Reg) : Prop := r = .txPlen ∨ r = .txSeed ∨ ∃ i, r = .txPay i

theorem writeReg_of_txOperand {r : Reg} (h : TxOperand r) (v : HostWord) :
    ∃ write, writeReg r v s = writeTxOperand write s := by
  unfold writeReg
  obtain rfl | rfl | ⟨i, rfl⟩ := h <;> exact ⟨_, rfl⟩

theorem writeTxOperand_of_busy (write : TxUnit → TxUnit) (busy : s.tx.state ≠ .idle) :
    writeTxOperand write s = s.setTx s.tx.reject := by
  simp [writeTxOperand, (TxUnit.busy_eq_true s.tx).2 busy]

theorem writeTxOperand_of_idle (write : TxUnit → TxUnit) (idle : s.tx.state = .idle) :
    writeTxOperand write s = s.setTx (write s.tx) := by
  simp [writeTxOperand, (TxUnit.busy_eq_false s.tx).2 idle]

theorem writeTxOperand_inFlightStands (write : TxUnit → TxUnit) (s : State) :
    InFlightStands s (writeTxOperand write s) := by
  by_cases idle : s.tx.state = .idle
  case pos =>
    rw [writeTxOperand_of_idle write idle]
    exact .setTx_of_idle idle _
  case neg =>
    rw [writeTxOperand_of_busy write idle]
    exact ⟨fun _ => rfl, fun _ => rfl⟩

/-- A host write takes no part in an operation: a TX operand is refused while the unit is busy, and the timeout
registers have been latched (10_state.md R34, R43). -/
theorem writeReg_inFlightStands (r : Reg) (v : HostWord) (s : State) : InFlightStands s (writeReg r v s) := by
  by_cases hr : TxOperand r
  · obtain ⟨write, hwrite⟩ := writeReg_of_txOperand (s := s) hr v
    rw [hwrite]
    exact writeTxOperand_inFlightStands write s
  · cases r with
    | txPlen => exact absurd (.inl rfl) hr
    | txSeed => exact absurd (.inr (.inl rfl)) hr
    | txPay i => exact absurd (.inr (.inr ⟨i, rfl⟩)) hr
    | _ => exact ⟨fun _ => rfl, fun _ => rfl⟩

/-- A host write to a register other than `CMD` always completes. -/
theorem hostTurn_write_of_ne_cmd {r : RegNo} (v : HostWord) (s : State) (h : regOf r ≠ .cmd) :
    hostTurn (.write r v) s = .next (writeReg (regOf r) v s) := if_neg h

theorem hostTurn_write_cmd {r : RegNo} (v : HostWord) (s : State) (h : regOf r = .cmd) :
    hostTurn (.write r v) s = exec (decodeCmd (v.setWidth 8)) s := if_pos h

theorem hostTurn_inFlightStands {access : HostAccess} (h : hostTurn access s = .next t) : InFlightStands s t := by
  cases access with
  | read r =>
    obtain ⟨v, -, rfl⟩ := hostRead_cases h
    exact .of_units_eq rfl rfl
  | write r v =>
    by_cases hr : regOf r = .cmd
    · rw [hostTurn_write_cmd v s hr] at h
      exact exec_inFlightStands (decodeCmd_port _) h
    · rw [hostTurn_write_of_ne_cmd v s hr] at h
      cases h
      exact writeReg_inFlightStands _ v s

/-! The turns of the units leave each other alone (10_state.md R20). -/

theorem rxTurn_tx (h : rxTurn s = .next t) : t.tx = s.tx := (rxTurns_run (rxTurns_succ 0 h)).tx

theorem wireBurst_tx {bytes : List Byte} (h : wireBurst bytes s = .next t) : t.tx = s.tx := (rxTurns_run h).tx

/-- A row of the wire is a burst of its bytes (log 8), which the TX unit does not see. -/
theorem exec_wire_tx {i : Instr} (wire : i.port = .wire) (h : exec i s = .next t) : t.tx = s.tx := by
  cases i with
  | frame payload => exact wireBurst_tx h
  | stxHunt => exact wireBurst_tx h
  | _ => exact nomatch wire

theorem decodeWire_port {bytes : List Byte} {i : Instr} (h : decodeWire bytes = .ok i) : i.port = .wire := by
  unfold decodeWire at h
  repeat' split at h
  all_goals cases h
  · rfl
  · rfl

/-- Bytes on the wire reach the RX unit only, whether or not they are an instruction. -/
theorem runWire_tx {bytes : List Byte} (h : runWire bytes s = .next t) : t.tx = s.tx := by
  unfold runWire at h
  split at h
  next i hi => exact exec_wire_tx (decodeWire_port hi) h
  · exact wireBurst_tx h

theorem txTurn_rx {ready : Bool} (h : txTurn ready s = .next t) : t.rx = s.rx := by
  obtain ⟨-, rfl⟩ | ⟨-, -, -, -, rfl⟩ := txTurn_cases h <;> rfl

/-- Settles O56: the host's turns leave a busy unit standing, and each unit's turns leave the other unit alone. -/
theorem operationsInFlightStand : Obligations.OperationsInFlightStand := by
  intro s t turn h hreset
  cases turn with
  | host access =>
    have stands := hostTurn_inFlightStands h
    exact ⟨fun emit _ => stands.tx emit, fun busy _ _ => stands.rx busy⟩
  | rx => exact ⟨fun _ _ => rxTurn_tx h ▸ rfl, fun _ own => absurd rfl own⟩
  | tx ready =>
    refine ⟨fun _ own => ?_, fun _ _ _ => txTurn_rx h ▸ rfl⟩
    obtain ⟨-, rfl⟩ | ⟨-, rfl, -⟩ := txTurn_cases h
    · rfl
    · exact absurd rfl own
  | wire bytes => exact ⟨fun _ _ => runWire_tx h ▸ rfl, fun _ _ own => absurd rfl (own bytes)⟩
  | source event =>
    obtain ⟨rfl, -⟩ := sourceTurn_cases h
    exact ⟨fun _ _ => rfl, fun _ _ _ => rfl⟩
  | reset => exact absurd rfl hreset

end Sys2Proof.Machine
end
section
/-! The tests of a write to `CMD` (60_exceptions.md R247). -/

namespace Sys2Proof.Machine

variable {s : State}

/-- A SEND to a busy TX unit is rejected, with the source open or not. -/
theorem exec_send_of_busy (busy : s.tx.state ≠ .idle) : exec .send s = .next (s.setTx s.tx.reject) :=
  execSend_eq_next.2 ⟨fun idle => absurd idle busy, txCommand_of_busy _ busy⟩

/-- A SEND to an idle TX unit is issued on an open source, and on any source where it is too long to begin
(60_exceptions.md R247 (5), 41_frame_build_parse.md R142). -/
theorem exec_send_of_idle (idle : s.tx.state = .idle) (source : s.sourceOpen = true ∨ s.tx.plen.toNat > 65534) :
    exec .send s = .next (s.setTx (sendIssue s.epoch s.tx.accept)) := by
  refine execSend_eq_next.2 ⟨fun _ hshort => ?_, txCommand_of_idle _ idle⟩
  have short : ¬ s.tx.plen.toNat > 65534 := fun h => nomatch ((tooLong_eq_true_iff s.tx).2 h).symm.trans hshort
  exact source.resolve_right short

/-- A READ to a busy RX unit is rejected, with the source open or not. -/
theorem exec_read_of_busy (strict : Bool) (busy : s.rx.state ≠ .idle) :
    exec (.read strict) s = .next (s.setRx s.rx.reject) :=
  execRead_eq_next.2 ⟨fun idle => absurd idle busy, rxCommand_of_busy _ busy⟩

/-- R247 (3): each of the three TX commands is rejected while `tx_busy`. -/
theorem issueCommand_tx_of_busy {w : Byte} (hw : w ∈ ([0x01, 0x02, 0x03] : List Byte)) (busy : s.tx.state ≠ .idle) :
    issueCommand w s = .next (s.setTx s.tx.reject) := by
  simp only [List.mem_cons, List.not_mem_nil, or_false] at hw
  obtain rfl | rfl | rfl := hw
  · exact txCommand_of_busy (checksumIssue s.epoch) busy
  · exact txCommand_of_busy (buildIssue s.epoch) busy
  · exact exec_send_of_busy busy

/-- R247 (4): each of the four RX commands is rejected while `rx_busy`. -/
theorem issueCommand_rx_of_busy {w : Byte} (hw : w ∈ ([0x04, 0x05, 0x06, 0x0D] : List Byte))
    (busy : s.rx.state ≠ .idle) : issueCommand w s = .next (s.setRx s.rx.reject) := by
  simp only [List.mem_cons, List.not_mem_nil, or_false] at hw
  obtain rfl | rfl | rfl | rfl := hw
  · exact rxCommand_of_busy payloadView busy
  · exact exec_read_of_busy false busy
  · exact exec_recv_of_busy busy
  · exact exec_read_of_busy true busy

/-- The register numbers of the TX operands (10_state.md R39) name them. -/
theorem regOf_txOperand {r : RegNo}
    (h : r.toNat = 0x00002 ∨ r.toNat = 0x00003 ∨ (0x10000 ≤ r.toNat ∧ r.toNat ≤ 0x10000 + 65534)) :
    TxOperand (regOf r) := by
  obtain h | h | ⟨hlo, hhi⟩ := h
  · exact .inl (by rw [regOf_scalar (by omega), h]; rfl)
  · exact .inr (.inl (by rw [regOf_scalar (by omega), h]; rfl))
  · have hbase : txPayBase = 0x10000 ∧ Config.txPaySize = 65535 := by decide
    exact .inr (.inr ⟨r.toNat - txPayBase, regOf_txPay (by omega) (by omega)⟩)

/-- A TX operand written while `tx_busy` is ignored and flagged (10_state.md R34). -/
theorem hostTurn_txOperand_of_busy {r : RegNo} (v : HostWord) (busy : s.tx.state ≠ .idle)
    (h : TxOperand (regOf r)) : hostTurn (.write r v) s = .next (s.setTx s.tx.reject) := by
  have notCmd : regOf r ≠ .cmd := fun hcmd => by simp [TxOperand, hcmd] at h
  obtain ⟨write, hwrite⟩ := writeReg_of_txOperand (s := s) h v
  rw [hostTurn_write_of_ne_cmd v s notCmd, hwrite, writeTxOperand_of_busy write busy]

/-- Settles O8: each test by the fact about its commands. -/
theorem commandAcceptance : Obligations.CommandAcceptance := by
  refine fun w s => ⟨?nop, fun hw => ?reserved, issueCommand_tx_of_busy, issueCommand_rx_of_busy,
    fun idle => ⟨?checksum, ?build, ?send⟩, fun idle => ⟨?parse, fun hopen => ⟨?read, ?readStrict, ?recv⟩⟩,
    fun busy r v hr => hostTurn_txOperand_of_busy v busy (regOf_txOperand hr)⟩
  case nop => rintro rfl; rfl
  case reserved =>
    rw [issueCommand_eq_exec, decodeCmd_of_reserved (reservedFields_of_not_valid w hw)]
    rfl
  case checksum => rintro rfl; exact txCommand_of_idle (checksumIssue s.epoch) idle
  case build => rintro rfl; exact txCommand_of_idle (buildIssue s.epoch) idle
  case send => rintro rfl; exact exec_send_of_idle idle
  case parse => rintro rfl; exact rxCommand_of_idle payloadView idle
  case read => rintro rfl; exact exec_read_issued false idle hopen
  case readStrict => rintro rfl; exact exec_read_issued true idle hopen
  case recv => rintro rfl; exact exec_recv_issued idle hopen

end Sys2Proof.Machine
end
section
/-! The decoder and the encoder are inverse to each other in both encoding spaces (30_encoding.md sections 1, 4
and 5). -/

namespace Sys2Proof.Machine

/-! The command space (30_encoding.md R100, R104). -/

theorem cmdByte_op (zero : BitVec 4) (strict : BitVec 1) (op : BitVec 3) :
    (cmdByte zero strict op).extractLsb' 0 3 = op :=
  BitVec.extractLsb'_append_eq_right

theorem cmdByte_strict (zero : BitVec 4) (strict : BitVec 1) (op : BitVec 3) :
    (cmdByte zero strict op).extractLsb' 3 1 = strict := by
  revert zero strict op
  decide

theorem cmdByte_zero (zero : BitVec 4) (strict : BitVec 1) (op : BitVec 3) :
    (cmdByte zero strict op).extractLsb' 4 4 = zero := by
  revert zero strict op
  decide

/-- A command byte is made of its three fields. -/
theorem cmdByte_fields : ∀ w : Byte, cmdByte (w.extractLsb' 4 4) (w.extractLsb' 3 1) (w.extractLsb' 0 3) = w := by
  decide

theorem decodeCmd_cmdByte_of_reserved {op : BitVec 3} {strict : BitVec 1} {zero : BitVec 4}
    (h : reservedFields op strict zero = true) :
    decodeCmd (cmdByte zero strict op) = .reservedCmd op strict zero := by
  have hw : reservedFields ((cmdByte zero strict op).extractLsb' 0 3) ((cmdByte zero strict op).extractLsb' 3 1)
      ((cmdByte zero strict op).extractLsb' 4 4) = true := by
    rw [cmdByte_op, cmdByte_strict, cmdByte_zero, h]
  rw [decodeCmd_of_reserved hw, cmdByte_op, cmdByte_strict, cmdByte_zero]

/-- What a command byte decodes to is well formed and is encoded as that byte. -/
theorem encode_decodeCmd (w : Byte) : (decodeCmd w).wf = true ∧ encode (decodeCmd w) = [w] := by
  by_cases hw : w ∈ ([0x00, 0x01, 0x02, 0x03, 0x04, 0x05, 0x06, 0x0D] : List Byte)
  · simp only [List.mem_cons, List.not_mem_nil, or_false] at hw
    obtain rfl | rfl | rfl | rfl | rfl | rfl | rfl | rfl := hw <;> exact ⟨rfl, rfl⟩
  · have hres := reservedFields_of_not_valid w hw
    rw [decodeCmd_of_reserved hres]
    exact ⟨hres, congrArg (· :: []) (cmdByte_fields w)⟩

/-! The wire (30_encoding.md R90 to R98). -/

/-- The bytes `decodeWire` takes for a frame: an accepted sequence that has room for a payload, and the end byte at its
place. -/
structure WireFrame (bytes : List Byte) : Prop where
  accepted : AcceptedFrame bytes
  size : 5 ≤ bytes.length
  endByte : bytes.getD (bytes.length - 2) 0 = etx

theorem decodeWire_of_wireFrame {bytes : List Byte} (h : WireFrame bytes) :
    decodeWire bytes = .ok (.frame (parseFrame bytes)) := by
  obtain ⟨⟨-, hstart, hlen, hfold⟩, h5, hend⟩ := h
  obtain ⟨a, b, rest, rfl⟩ : ∃ a b rest, bytes = a :: b :: rest := by
    match bytes, h5 with
    | a :: b :: rest, _ => exact ⟨a, b, rest, rfl⟩
  have hstart' : (a :: b :: rest).getD 0 0 = stx := by rw [List.getD_eq_getElem?_getD, hstart]; rfl
  unfold decodeWire
  dsimp only
  rw [if_neg (not_not.2 hstart'), if_neg (by omega), if_neg (not_not.2 hlen), if_neg (not_not.2 hend),
    if_neg (not_not.2 hfold)]

/-- On the wire the start byte alone and the frames decode, and nothing else does. -/
theorem decodeWire_cases {bytes : List Byte} {i : Instr} (h : decodeWire bytes = .ok i) :
    (bytes = [stx] ∧ i = .stxHunt) ∨ (WireFrame bytes ∧ i = .frame (parseFrame bytes)) := by
  unfold decodeWire at h
  split at h
  · cases h
  next b =>
    split at h
    next hb => cases h; exact .inl ⟨by rw [hb], rfl⟩
    next => cases h
  next a b rest =>
    split_ifs at h with hstart h5 hlen hend hfold
    cases h
    have hstart' : (a :: b :: rest)[0]? = some stx := congrArg some (not_not.1 hstart)
    exact .inr ⟨⟨⟨by omega, hstart', not_not.1 hlen, not_not.1 hfold⟩, by omega, not_not.1 hend⟩, rfl⟩

theorem wireFrame_buildFrame {payload : List Byte} (h : payload.length ≤ 65534) : WireFrame (buildFrame payload) where
  accepted := acceptedFrame_buildFrame h
  size := by rw [buildFrame_length]; omega
  endByte := by
    rw [buildFrame_length, List.getD_eq_getElem?_getD, show payload.length + 5 - 2 = payload.length + 3 by omega,
      buildFrame_end_byte]
    rfl

/-- The two bytes of a length field are `u16_be` of its value (00_scope.md R10). -/
theorem u16be_lengthField (hi lo : Byte) : u16be (lengthField hi lo) = [hi, lo] := by
  have h1 := hi.isLt
  have h2 := lo.isLt
  have hdiv : lengthField hi lo / 256 = hi.toNat := by unfold lengthField; omega
  have hmod : lengthField hi lo % 256 = lo.toNat := by unfold lengthField; omega
  rw [u16be, hdiv, hmod, BitVec.ofNat_toNat, BitVec.ofNat_toNat, BitVec.setWidth_eq, BitVec.setWidth_eq]

/-- A frame's length field, end byte and checksum leave no choice: it is `build` of its payload
(41_frame_build_parse.md R140). -/
theorem WireFrame.exists_payload {bytes : List Byte} (h : WireFrame bytes) :
    ∃ payload : List Byte, payload.length ≤ 65534 ∧ bytes = buildFrame payload := by
  obtain ⟨⟨-, hstart, hlen, hfold⟩, h5, hend⟩ := h
  obtain ⟨a, hi, lo, tail, rfl⟩ : ∃ a hi lo tail, bytes = a :: hi :: lo :: tail := by
    match bytes, h5 with
    | a :: hi :: lo :: tail, _ => exact ⟨a, hi, lo, tail, rfl⟩
  obtain ⟨front, c, rfl⟩ := tail.eq_nil_or_concat'.resolve_left (by rintro rfl; simp at h5)
  obtain ⟨payload, e, rfl⟩ := front.eq_nil_or_concat'.resolve_left (by rintro rfl; simp at h5)
  obtain rfl : a = stx := Option.some.inj hstart
  have hfield : lengthField hi lo = payload.length + 1 := by
    simp only [List.length_cons, List.length_append, List.length_nil, List.getD_cons_succ, List.getD_cons_zero]
      at hlen
    omega
  have hmax := lengthField_lt hi lo
  obtain rfl : e = etx := by simpa [List.getD_eq_getElem?_getD] using hend
  have hhead : stx :: hi :: lo :: (payload ++ [etx]) = frameHead payload := by
    rw [frameHead, ← hfield, u16be_lengthField]
    rfl
  have hbytes : stx :: hi :: lo :: (payload ++ [etx] ++ [c]) = frameHead payload ++ [c] := by rw [← hhead]; rfl
  rw [hbytes] at hfold ⊢
  have hc : c = frameChecksum payload := (selfCheckForms (frameHead payload) c).1.2 hfold
  exact ⟨payload, by omega, by rw [hc, buildFrame]⟩

/-- Settles O1: a command's fields and a frame's payload come back from the bytes they were put in. -/
theorem decodeInvertsEncode : Obligations.DecodeInvertsEncode := by
  intro i hwf
  cases i with
  | reservedCmd op strict zero => exact congrArg Except.ok (decodeCmd_cmdByte_of_reserved hwf)
  | frame payload =>
    have hframe := decodeWire_of_wireFrame (wireFrame_buildFrame (of_decide_eq_true hwf))
    rwa [parseFrame_buildFrame] at hframe
  | read strict => cases strict <;> rfl
  | _ => rfl

theorem encode_decodeWire {bytes : List Byte} {i : Instr} (h : decodeWire bytes = .ok i) :
    i.wf = true ∧ encode i = bytes := by
  obtain ⟨rfl, rfl⟩ | ⟨hframe, rfl⟩ := decodeWire_cases h
  · exact ⟨rfl, rfl⟩
  · obtain ⟨payload, hlen, rfl⟩ := hframe.exists_payload
    rw [parseFrame_buildFrame]
    exact ⟨decide_eq_true hlen, rfl⟩

/-- Settles O2: a command byte is made of the fields it decodes to, and a frame is `build` of its payload. -/
theorem encodeInvertsDecode : Obligations.EncodeInvertsDecode := by
  intro p bytes i h
  cases p with
  | cmd =>
    match bytes, h with
    | [w], h =>
      cases h
      exact ⟨decodeCmd_port w, encode_decodeCmd w⟩
  | wire => exact ⟨decodeWire_port h, encode_decodeWire h⟩

/-- Settles O3: the eight values of the table by evaluation, any other by its reserved fields. -/
theorem commandWordsDecodeByTable : Obligations.CommandWordsDecodeByTable :=
  ⟨rfl, rfl, rfl, rfl, rfl, rfl, rfl, rfl, fun w hw => decodeCmd_of_reserved (reservedFields_of_not_valid w hw)⟩

/-- Settles O4, by evaluating the decoder on the vectors. -/
theorem wireWordsDecodeByTable : Obligations.WireWordsDecodeByTable := by
  unfold Obligations.WireWordsDecodeByTable
  decide

end Sys2Proof.Machine
end
section
/-! What one answer of the source can do to a busy RX unit, one case for each rule of 42_frame_reader.md section 3, and
what none of them changes. -/

namespace Sys2Proof.Machine

/-- The reader has left HUNT and its frame is in progress. -/
def RxUnit.Framing (u : RxUnit) : Prop := u.state = .hdr ∨ u.state = .body

theorem RxUnit.Framing.busy {u : RxUnit} (h : u.Framing) : u.state ≠ .idle := by
  obtain h | h := h <;> simp [h]

/-- What an RX unit with registers `u` becomes on an answer, by the rule that matches (42_frame_reader.md R184). -/
inductive RxAnswer (epoch : Nat) (u : RxUnit) : SrcAnswer → RxUnit → Prop
  /-- R175 -/
  | timeout (hunt : u.state = .hunt) (expired : u.tmr = 0) : RxAnswer epoch u .tick (raiseRx .timeout u)
  /-- R178, R180 -/
  | short (framing : u.Framing) (expired : u.tmr = 0) : RxAnswer epoch u .tick (raiseRx .length u)
  /-- R175, R178, R180 -/
  | count (busy : u.state ≠ .idle) (running : u.tmr ≠ 0) : RxAnswer epoch u .tick { u with tmr := u.tmr - 1 }
  /-- R172 -/
  | start (hunt : u.state = .hunt) : RxAnswer epoch u (.byte stx) (huntStart u)
  /-- R173 -/
  | noStart (b : Byte) (hunt : u.state = .hunt) (other : b ≠ stx) (strict : u.strict = true) :
      RxAnswer epoch u (.byte b) (huntStrict b u)
  /-- R174 -/
  | noise (b : Byte) (hunt : u.state = .hunt) (other : b ≠ stx) (lax : u.strict = false) :
      RxAnswer epoch u (.byte b) (huntNoise u)
  /-- R176, R179 -/
  | stored (b : Byte) (framing : u.Framing) (more : (storeByte b u).need ≠ 0) :
      RxAnswer epoch u (.byte b) (storeByte b u)
  /-- R177 -/
  | header (b : Byte) (hdr : u.state = .hdr) (last : (storeByte b u).need = 0)
      (declares : declaredLength epoch (storeByte b u) ≠ 0) :
      RxAnswer epoch u (.byte b) { storeByte b u with
        len := BitVec.ofNat 16 (declaredLength epoch (storeByte b u))
        need := BitVec.ofNat 16 (declaredLength epoch (storeByte b u))
        tmr := u.tframe
        state := .body }
  /-- R177 with R183 -/
  | headerOnly (b : Byte) (hdr : u.state = .hdr) (last : (storeByte b u).need = 0)
      (declares : declaredLength epoch (storeByte b u) = 0) :
      RxAnswer epoch u (.byte b) (validate { storeByte b u with len := 0 })
  /-- R179, R181 -/
  | frame (b : Byte) (body : u.state = .body) (last : (storeByte b u).need = 0) :
      RxAnswer epoch u (.byte b) (validate (storeByte b u))

variable {epoch : Nat} {u u' : RxUnit} {a : SrcAnswer}

theorem rxOnTick_answer (busy : u.state ≠ .idle) : RxAnswer epoch u .tick (rxOnTick u) := by
  by_cases htmr : u.tmr = 0
  · cases hs : u.state with
    | idle => exact absurd hs busy
    | hunt => rw [rxOnTick_hunt hs, countTick, if_pos htmr]; exact .timeout hs htmr
    | hdr => rw [rxOnTick_hdr hs, countTick, if_pos htmr]; exact .short (.inl hs) htmr
    | body => rw [rxOnTick_body hs, countTick, if_pos htmr]; exact .short (.inr hs) htmr
  · obtain ⟨kind, -, -, hphase⟩ := rxOnTick_of_busy busy
    rw [hphase u rfl, countTick, if_neg htmr]
    exact .count busy htmr

theorem rxOnByte_answer (b : Byte) (busy : u.state ≠ .idle) : RxAnswer epoch u (.byte b) (rxOnByte epoch b u) := by
  cases hs : u.state with
  | idle => exact absurd hs busy
  | hunt =>
    by_cases hb : b = stx
    · rw [hb, rxOnByte_hunt_stx hs]; exact .start hs
    · cases hstrict : u.strict with
      | true => rw [rxOnByte_hunt_strict hs hb hstrict]; exact .noStart b hs hb hstrict
      | false => rw [rxOnByte_hunt_noise hs hb hstrict]; exact .noise b hs hb hstrict
  | hdr =>
    by_cases last : (storeByte b u).need = 0
    · by_cases declares : declaredLength epoch (storeByte b u) = 0
      · rw [rxOnByte_hdr_zero hs last declares]; exact .headerOnly b hs last declares
      · rw [rxOnByte_hdr_last hs last, headerComplete_of_ne_zero declares]; exact .header b hs last declares
    · rw [rxOnByte_hdr_more hs last]; exact .stored b (.inl hs) last
  | body =>
    by_cases last : (storeByte b u).need = 0
    · rw [rxOnByte_body_last hs last]; exact .frame b hs last
    · rw [rxOnByte_body_more hs last]; exact .stored b (.inr hs) last

/-- A busy unit takes every answer by one of the rules. -/
theorem rxOn_answer (epoch : Nat) (a : SrcAnswer) (busy : u.state ≠ .idle) :
    RxAnswer epoch u a (rxOn epoch a u) := by
  cases a with
  | tick => exact rxOnTick_answer busy
  | byte b => exact rxOnByte_answer b busy

/-- Only one rule matches (42_frame_reader.md R184). -/
theorem RxAnswer.eq_rxOn (h : RxAnswer epoch u a u') : u' = rxOn epoch a u := by
  cases h with
  | timeout hunt expired => exact ((rxOnTick_hunt hunt).trans (if_pos expired)).symm
  | short framing expired =>
    obtain hs | hs := framing
    · exact ((rxOnTick_hdr hs).trans (if_pos expired)).symm
    · exact ((rxOnTick_body hs).trans (if_pos expired)).symm
  | count busy running =>
    obtain ⟨kind, -, -, hphase⟩ := rxOnTick_of_busy busy
    exact ((hphase u rfl).trans (if_neg running)).symm
  | start hunt => exact (rxOnByte_hunt_stx hunt).symm
  | noStart b hunt other strict => exact (rxOnByte_hunt_strict hunt other strict).symm
  | noise b hunt other lax => exact (rxOnByte_hunt_noise hunt other lax).symm
  | stored b framing more =>
    obtain hs | hs := framing
    · exact (rxOnByte_hdr_more hs more).symm
    · exact (rxOnByte_body_more hs more).symm
  | header b hdr last declares =>
    exact ((rxOnByte_hdr_last hdr last).trans (headerComplete_of_ne_zero declares)).symm
  | headerOnly b hdr last declares => exact (rxOnByte_hdr_zero hdr last declares).symm
  | frame b body last => exact (rxOnByte_body_last body last).symm

/-- A turn of the RX unit that goes on is an idle unit's, which changes nothing, or takes one answer by one of the
rules. -/
theorem rxTurn_answer_cases {s t : State} (h : rxTurn s = .next t) :
    (s.rx.state = .idle ∧ t = s) ∨ (s.rx.state ≠ .idle ∧ RxAnswer s.epoch s.rx (srcRead s).1 t.rx ∧
      (∀ b, (srcRead s).1 = .byte b → s.rx.Framing → s.rx.cnt.toNat < Config.rxBufSize)) := by
  obtain hidle | ⟨busy, -, rfl, room⟩ := rxTurn_cases h
  · exact .inl hidle
  · refine .inr ⟨busy, rxOn_answer s.epoch _ busy, fun b hb framing => room b hb fun hunt => ?_⟩
    obtain hs | hs := framing <;> exact nomatch hunt.symm.trans hs

/-! What no answer changes. -/

/-- `u'` has the operands `u` had at its issue and what the host sees of them: no RX step touches these. -/
structure RxUnit.SameOperands (u u' : RxUnit) : Prop where
  strict : u'.strict = u.strict
  recv : u'.recv = u.recv
  tidle : u'.tidle = u.tidle
  tframe : u'.tframe = u.tframe
  cmdErr : u'.cmdErr = u.cmdErr
  regTidle : u'.regTidle = u.regTidle
  regTframe : u'.regTframe = u.regTframe

theorem RxUnit.SameOperands.refl (u : RxUnit) : u.SameOperands u := ⟨rfl, rfl, rfl, rfl, rfl, rfl, rfl⟩

theorem RxUnit.SameOperands.trans {u'' : RxUnit} (h : u.SameOperands u') (h' : u'.SameOperands u'') :
    u.SameOperands u'' :=
  ⟨h'.strict.trans h.strict, h'.recv.trans h.recv, h'.tidle.trans h.tidle, h'.tframe.trans h.tframe,
    h'.cmdErr.trans h.cmdErr, h'.regTidle.trans h.regTidle, h'.regTframe.trans h.regTframe⟩

theorem validate_sameOperands (u : RxUnit) : u.SameOperands (validate u) := by
  obtain ⟨-, -, h⟩ | ⟨-, -, h⟩ | ⟨-, h⟩ := validate_cases u <;> rw [h] <;> exact ⟨rfl, rfl, rfl, rfl, rfl, rfl, rfl⟩

theorem RxAnswer.sameOperands (h : RxAnswer epoch u a u') : u.SameOperands u' := by
  cases h with
  | headerOnly b =>
    have whole : u.SameOperands { storeByte b u with len := 0 } := ⟨rfl, rfl, rfl, rfl, rfl, rfl, rfl⟩
    exact whole.trans (validate_sameOperands _)
  | frame b =>
    have whole : u.SameOperands (storeByte b u) := ⟨rfl, rfl, rfl, rfl, rfl, rfl, rfl⟩
    exact whole.trans (validate_sameOperands _)
  | _ => exact ⟨rfl, rfl, rfl, rfl, rfl, rfl, rfl⟩

theorem rxTurn_sameOperands {s t : State} (h : rxTurn s = .next t) : s.rx.SameOperands t.rx := by
  obtain ⟨-, rfl⟩ | ⟨-, answer, -⟩ := rxTurn_answer_cases h
  · exact .refl _
  · exact answer.sameOperands

theorem rxTurns_sameOperands {n : Nat} {s t : State} (h : rxTurns n s = .next t) : s.rx.SameOperands t.rx :=
  rxTurns_induct (p := fun m => s.rx.SameOperands m.rx) (fun _ _ hm hr => hm.trans (rxTurn_sameOperands hr))
    (.refl _) h

/-- Turns of the RX unit touch the RX unit, the answers left and the count of free draws, and nothing else. -/
theorem rxTurns_frame {n : Nat} {s t : State} (h : rxTurns n s = .next t) :
    ∃ l k, t = ((s.setIncoming l).setDraws k).setRx t.rx := by
  refine rxTurns_induct (p := fun m => ∃ l k, m = ((s.setIncoming l).setDraws k).setRx m.rx) (fun m m' hm hr => ?_)
    ⟨s.incoming, s.draws, rfl⟩ h
  obtain ⟨l, k, hm⟩ := hm
  obtain ⟨l', k', hm', -⟩ := rxTurn_frame hr
  refine ⟨l', k', ?_⟩
  rw [hm', hm]
  rfl

end Sys2Proof.Machine
end

section
/-! What each instruction and each turn leaves alone (10_state.md R20, 20_memory.md R63, R69, R79, 60_exceptions.md
R261). -/

namespace Sys2Proof.Machine

variable {s t : State}

/-! Commands. -/

theorem rxCommand_setRx {issue : RxUnit → RxUnit} (h : rxCommand issue s = .next t) : t = s.setRx t.rx := by
  obtain ⟨-, hr⟩ | ⟨-, hr⟩ := rxCommand_cases issue s <;> rw [hr] at h <;> cases h <;> rfl

theorem txCommand_setTx {issue : TxUnit → TxUnit} (h : txCommand issue s = .next t) : t = s.setTx t.tx := by
  obtain ⟨-, hr⟩ | ⟨-, hr⟩ := txCommand_cases issue s <;> rw [hr] at h <;> cases h <;> rfl

/-- The RX commands are commands of the RX unit alone, and what they issue leaves the buffer and the host's registers
as they are. -/
theorem exec_rx_command {i : Instr} (hi : i ∈ [Instr.parse, .read true, .read false, .recv])
    (h : exec i s = .next t) :
    ∃ issue : RxUnit → RxUnit, rxCommand issue s = .next t ∧ ∀ u : RxUnit,
      (issue u).buf = u.buf ∧ (issue u).len = u.len ∧ (issue u).need = u.need ∧ (issue u).regTidle = u.regTidle ∧
        (issue u).regTframe = u.regTframe := by
  simp only [List.mem_cons, List.not_mem_nil, or_false] at hi
  obtain rfl | rfl | rfl | rfl := hi
  · exact ⟨payloadView, h, fun _ => ⟨rfl, rfl, rfl, rfl, rfl⟩⟩
  · exact ⟨readIssue false true, (execRead_eq_next.1 h).2, fun _ => ⟨rfl, rfl, rfl, rfl, rfl⟩⟩
  · exact ⟨readIssue false false, (execRead_eq_next.1 h).2, fun _ => ⟨rfl, rfl, rfl, rfl, rfl⟩⟩
  · exact ⟨readIssue true false, (execRecv_eq_next.1 h).2, fun _ => ⟨rfl, rfl, rfl, rfl, rfl⟩⟩

theorem buildIssue_operands (epoch : Nat) (u : TxUnit) :
    (buildIssue epoch u).pay = u.pay ∧ (buildIssue epoch u).plen = u.plen ∧ (buildIssue epoch u).seed = u.seed := by
  unfold buildIssue
  split <;> exact ⟨rfl, rfl, rfl⟩

theorem sendIssue_operands (epoch : Nat) (u : TxUnit) :
    (sendIssue epoch u).pay = u.pay ∧ (sendIssue epoch u).plen = u.plen ∧ (sendIssue epoch u).seed = u.seed := by
  unfold sendIssue
  split <;> exact ⟨rfl, rfl, rfl⟩

/-- The TX commands are commands of the TX unit alone, and what they issue leaves the operands as they are. -/
theorem exec_tx_command {i : Instr} (hi : i ∈ [Instr.checksum, .build, .send]) (h : exec i s = .next t) :
    ∃ issue : TxUnit → TxUnit, txCommand issue s = .next t ∧ ∀ u : TxUnit,
      (issue u).pay = u.pay ∧ (issue u).plen = u.plen ∧ (issue u).seed = u.seed := by
  simp only [List.mem_cons, List.not_mem_nil, or_false] at hi
  obtain rfl | rfl | rfl := hi
  · exact ⟨checksumIssue s.epoch, h, fun _ => ⟨rfl, rfl, rfl⟩⟩
  · exact ⟨buildIssue s.epoch, h, buildIssue_operands s.epoch⟩
  · exact ⟨sendIssue s.epoch, (execSend_eq_next.1 h).2, sendIssue_operands s.epoch⟩

theorem exec_tx_command_frame {i : Instr} (hi : i ∈ [Instr.checksum, .build, .send]) (h : exec i s = .next t) :
    t = s.setTx t.tx ∧ t.tx.pay = s.tx.pay ∧ t.tx.plen = s.tx.plen ∧ t.tx.seed = s.tx.seed := by
  obtain ⟨issue, hcommand, hissue⟩ := exec_tx_command hi h
  refine ⟨txCommand_setTx hcommand, ?_⟩
  obtain ⟨-, hr⟩ | ⟨-, hr⟩ := txCommand_cases issue s <;> rw [hr] at hcommand <;> cases hcommand
  · exact ⟨rfl, rfl, rfl⟩
  · exact hissue s.tx.accept

theorem exec_rx_command_frame {i : Instr} (hi : i ∈ [Instr.parse, .read true, .read false, .recv])
    (h : exec i s = .next t) :
    t = s.setRx t.rx ∧ t.rx.buf = s.rx.buf ∧ t.rx.len = s.rx.len ∧ t.rx.need = s.rx.need ∧
      t.rx.regTidle = s.rx.regTidle ∧ t.rx.regTframe = s.rx.regTframe := by
  obtain ⟨issue, hcommand, hissue⟩ := exec_rx_command hi h
  refine ⟨rxCommand_setRx hcommand, ?_⟩
  obtain ⟨-, hr⟩ | ⟨-, hr⟩ := rxCommand_cases issue s <;> rw [hr] at hcommand <;> cases hcommand
  · exact ⟨rfl, rfl, rfl, rfl, rfl⟩
  · exact hissue s.rx.accept

/-- A command changes the units and nothing around them. -/
theorem exec_cmd_frame {i : Instr} (cmd : i.port = .cmd) (h : exec i s = .next t) :
    t = (s.setRx t.rx).setTx t.tx := by
  have ofRx (hi : i ∈ [Instr.parse, .read true, .read false, .recv]) : t = (s.setRx t.rx).setTx t.tx := by
    rw [(exec_rx_command_frame hi h).1]
    rfl
  have ofTx (hi : i ∈ [Instr.checksum, .build, .send]) : t = (s.setRx t.rx).setTx t.tx := by
    rw [(exec_tx_command_frame hi h).1]
    rfl
  cases i with
  | nop => cases h; rfl
  | checksum => exact ofTx (by simp)
  | build => exact ofTx (by simp)
  | send => exact ofTx (by simp)
  | parse => exact ofRx (by simp)
  | read strict => exact ofRx (by cases strict <;> simp)
  | recv => exact ofRx (by simp)
  | reservedCmd op strict zero => rw [exec_reservedCmd] at h; cases h; rfl
  | frame payload => exact nomatch cmd
  | stxHunt => exact nomatch cmd

/-- The wire is a burst of bytes (log 8). -/
theorem exec_wire_burst {i : Instr} (wire : i.port = .wire) (h : exec i s = .next t) :
    ∃ bytes, wireBurst bytes s = .next t := by
  cases i with
  | frame payload => exact ⟨_, h⟩
  | stxHunt => exact ⟨_, h⟩
  | _ => exact nomatch wire

theorem wireBurst_frame {bytes : List Byte} (h : wireBurst bytes s = .next t) :
    ∃ l k, t = ((s.setIncoming l).setDraws k).setRx t.rx := rxTurns_frame (s := present bytes s) h

/-- `t` has the outgoing stream, the source's health and the model's own fields of `s`. -/
structure SameSurroundings (s t : State) : Prop where
  outgoing : t.outgoing = s.outgoing
  sourceOpen : t.sourceOpen = s.sourceOpen
  agenda : t.agenda = s.agenda
  hostData : t.hostData = s.hostData
  epoch : t.epoch = s.epoch

theorem wireBurst_surroundings {bytes : List Byte} (h : wireBurst bytes s = .next t) : SameSurroundings s t := by
  obtain ⟨l, k, ht⟩ := wireBurst_frame h
  rw [ht]
  exact ⟨rfl, rfl, rfl, rfl, rfl⟩

/-- No instruction emits a byte or touches what surrounds the units. -/
theorem exec_surroundings {i : Instr} (h : exec i s = .next t) : SameSurroundings s t := by
  cases hport : i.port with
  | cmd =>
    rw [exec_cmd_frame hport h]
    exact ⟨rfl, rfl, rfl, rfl, rfl⟩
  | wire =>
    obtain ⟨bytes, hburst⟩ := exec_wire_burst hport h
    exact wireBurst_surroundings hburst

/-- Settles O55: commands by the unit they are addressed to, the wire as a burst. -/
theorem instructionFrames : Obligations.InstructionFrames := by
  intro i s t h
  obtain ⟨hout, hopen, hagenda, hdata, hepoch⟩ := exec_surroundings h
  refine ⟨hout, hopen, hagenda, hdata, hepoch, fun cmd => ?cmd, fun hi => ?tx, fun hi => ?rx, ?reserved,
    fun wire => ?wire⟩
  case cmd =>
    rw [exec_cmd_frame cmd h]
    exact ⟨rfl, rfl⟩
  case tx =>
    obtain ⟨ht, hoperands⟩ := exec_tx_command_frame hi h
    exact ⟨by rw [ht]; rfl, hoperands⟩
  case rx =>
    obtain ⟨ht, hoperands⟩ := exec_rx_command_frame hi h
    exact ⟨by rw [ht]; rfl, hoperands⟩
  case reserved =>
    rintro op st z rfl
    rw [exec_reservedCmd] at h
    cases h
    exact ⟨rfl, rfl⟩
  case wire =>
    obtain ⟨bytes, hburst⟩ := exec_wire_burst wire h
    have kept := rxTurns_sameOperands hburst
    exact ⟨wireBurst_tx hburst, kept.cmdErr, kept.regTidle, kept.regTframe⟩

/-! Turns. -/

/-- A host write changes the units and nothing around them. -/
theorem writeReg_frame (r : Reg) (v : HostWord) (s : State) :
    writeReg r v s = (s.setRx (writeReg r v s).rx).setTx (writeReg r v s).tx := by
  cases r <;> rfl

/-- A host access changes the units and what the host has read, and nothing else. -/
theorem hostTurn_frame {access : HostAccess} (h : hostTurn access s = .next t) :
    t = ((s.setRx t.rx).setTx t.tx).setHostData t.hostData := by
  cases access with
  | read r =>
    obtain ⟨v, -, rfl⟩ := hostRead_cases h
    rfl
  | write r v =>
    by_cases hr : regOf r = .cmd
    · rw [hostTurn_write_cmd v s hr] at h
      rw [exec_cmd_frame (decodeCmd_port _) h]
      rfl
    · rw [hostTurn_write_of_ne_cmd v s hr] at h
      cases h
      rw [writeReg_frame]
      rfl

theorem runWire_surroundings {bytes : List Byte} (h : runWire bytes s = .next t) : SameSurroundings s t := by
  unfold runWire at h
  split at h
  · exact exec_surroundings h
  · exact wireBurst_surroundings h

theorem rxTurn_surroundings (h : rxTurn s = .next t) : SameSurroundings s t := by
  obtain ⟨l, k, ht, -⟩ := rxTurn_frame h
  rw [ht]
  exact ⟨rfl, rfl, rfl, rfl, rfl⟩

/-- Only the collaborator's turns change the source's health (60_exceptions.md R261). -/
theorem perform_sourceOpen {turn : Turn} (h : perform turn s = .next t) (hturn : ∀ event, turn ≠ .source event) :
    t.sourceOpen = s.sourceOpen := by
  cases turn with
  | host access => rw [hostTurn_frame h]; rfl
  | rx => exact (rxTurn_surroundings h).sourceOpen
  | tx ready => obtain ⟨-, rfl⟩ | ⟨-, -, -, -, rfl⟩ := txTurn_cases h <;> rfl
  | wire bytes => exact (runWire_surroundings h).sourceOpen
  | source event => exact absurd rfl (hturn event)
  | reset => cases h; rfl

/-- Only a TX turn with a SEND in flight and the sink ready adds to the outgoing stream (20_memory.md R69). -/
theorem perform_outgoing {turn : Turn} (h : perform turn s = .next t) :
    t.outgoing = s.outgoing ∨ ∃ b, t.outgoing = s.outgoing ++ [b] ∧ turn = .tx true ∧ s.tx.state = .emit := by
  cases turn with
  | host access => exact .inl (by rw [hostTurn_frame h]; rfl)
  | rx => exact .inl (rxTurn_surroundings h).outgoing
  | tx ready =>
    obtain ⟨-, rfl⟩ | ⟨emit, rfl, -, -, rfl⟩ := txTurn_cases h
    · exact .inl rfl
    · exact .inr ⟨_, rfl, rfl, emit⟩
  | wire bytes => exact .inl (runWire_surroundings h).outgoing
  | source event => exact .inl (by rw [(sourceTurn_cases h).1]; rfl)
  | reset => cases h; exact .inl rfl

/-- Only the RX unit's turns take answers, one at a time and in order (20_memory.md R63, R68); the wire presents new
ones. -/
theorem perform_incoming {turn : Turn} (h : perform turn s = .next t) (hturn : ∀ bytes, turn ≠ .wire bytes) :
    (∃ taken, s.incoming = taken ++ t.incoming ∧ taken.length ≤ 1) ∧
      (s.rx.state = .idle → t.incoming = s.incoming) := by
  have ofEq (heq : t.incoming = s.incoming) : (∃ taken, s.incoming = taken ++ t.incoming ∧ taken.length ≤ 1) ∧
      (s.rx.state = .idle → t.incoming = s.incoming) := ⟨⟨[], heq.symm, Nat.zero_le 1⟩, fun _ => heq⟩
  cases turn with
  | host access => exact ofEq (by rw [hostTurn_frame h]; rfl)
  | rx =>
    obtain ⟨l, k, ht, htaken⟩ := rxTurn_frame h
    refine ⟨by rw [ht]; exact htaken, fun idle => ?_⟩
    obtain rfl : s = t := Host.Outcome.next.inj ((rxTurn_of_idle idle).symm.trans h)
    rfl
  | tx ready => obtain ⟨-, rfl⟩ | ⟨-, -, -, -, rfl⟩ := txTurn_cases h <;> exact ofEq rfl
  | wire bytes => exact absurd rfl (hturn bytes)
  | source event => exact ofEq (by rw [(sourceTurn_cases h).1]; rfl)
  | reset => cases h; exact ofEq rfl

/-! Steps: the turn taken off the agenda changes none of this. -/

/-- Settles O57: of all turns only the TX turn emits. -/
theorem onlyTheTxStepEmits : Obligations.OnlyTheTxStepEmits := by
  intro s t h
  obtain ⟨l, n, ht⟩ := takeTurn_frame s
  have hout := perform_outgoing h
  rw [ht] at hout
  exact hout

/-- Settles O58: of all turns only the RX unit's take answers. -/
theorem theSourceIsReadInOrder : Obligations.TheSourceIsReadInOrder := by
  intro s t h hturn
  obtain ⟨l, n, ht⟩ := takeTurn_frame s
  have hin := perform_incoming h hturn
  rw [ht] at hin
  exact hin

/-- Settles O60: only a turn of the collaborator changes the source's health, and one that does finds both units
idle. -/
theorem sourceIsTheCollaborators : Obligations.SourceIsTheCollaborators := by
  intro s t h
  obtain ⟨l, n, ht⟩ := takeTurn_frame s
  have collaborator (event : SourceEvent) (hturn : (takeTurn s).1 = .source event) :
      t = ((s.setAgenda l).setDraws n).setSourceOpen (decide (event = .opened)) ∧
        (s.rx.state ≠ .idle ∨ s.tx.state ≠ .idle → event = .opened ∧ s.sourceOpen = true) := by
    rw [step, hturn, ht] at h
    exact sourceTurn_cases h
  refine ⟨fun hchange => ?_, fun hturn => ?_, fun hturn => ?_⟩
  · by_cases hevent : ∃ event, (takeTurn s).1 = .source event
    · obtain ⟨event, hturn⟩ := hevent
      obtain ⟨rfl, hbusy⟩ := collaborator event hturn
      refine ⟨⟨event, hturn⟩, ?_⟩
      by_contra hidle
      obtain ⟨rfl, hopen⟩ := hbusy (not_and_or.1 hidle)
      exact hchange hopen.symm
    · have hsame := perform_sourceOpen h (not_exists.1 hevent)
      rw [ht] at hsame
      exact absurd hsame hchange
  · obtain ⟨rfl, -⟩ := collaborator .opened hturn
    exact ⟨rfl, rfl, rfl⟩
  · obtain ⟨rfl, -⟩ := collaborator .lost hturn
    exact ⟨rfl, rfl, rfl⟩

end Sys2Proof.Machine
end
section
/-! The invariant of reachable states: what it says of each unit alone, and that every move keeps it. That R49 is kept
is `RuleR49.setRx` and `Moves.keeps_ruleR49`; here are the buffers, the ranges and the contexts. -/

namespace Sys2Proof.Machine

open Relation (ReflTransGen)

/-! The RX unit. -/

/-- The header that stands in the buffer declares the length in `rx_len` (30_encoding.md R97). -/
def RxUnit.Declared (u : RxUnit) : Prop :=
  ∃ hi lo, u.buf.read? 1 = some hi ∧ u.buf.read? 2 = some lo ∧ u.len.toNat = lengthField hi lo

/-- The context that each result leaves (60_exceptions.md R240 to R244). -/
def RxUnit.Context (u : RxUnit) : Prop :=
  match u.result with
  | .none => True
  | .ok => u.Declared
  | .timeout => u.cnt = 0
  | .start => u.cnt = 1 ∧ u.buf.read? 0 ≠ some stx ∧ u.recv = false ∧ u.strict = true
  | .length => 1 ≤ u.cnt.toNat ∧ u.cnt.toNat ≤ 65538 ∧ u.buf.read? 0 = some stx
  | .data =>
    (u.cnt.toNat = u.len.toNat + 4 ∧ u.buf.read? 0 = some stx ∧
      ∃ bytes, u.accumulated = some bytes ∧ u.lrc = fold bytes 0 ∧ u.lrc ≠ lrcSeed) ∧ u.Declared

/-- What the invariant says of the RX unit besides R49. -/
structure RxUnit.Ok (u : RxUnit) : Prop where
  buf : u.buf.wf Config.rxBufSize = true
  accumulated : u.accumulated ≠ none
  cnt : u.cnt.toNat ≤ 65539
  recv : u.recv = true → u.strict = false
  huntTimer : u.state = .hunt → u.tmr.toNat ≤ u.tidle.toNat
  frameTimer : u.Framing → u.tmr.toNat ≤ u.tframe.toNat
  view : u.pvalid = true → u.state = .idle ∧ u.poff = 3 ∧ u.plen.toNat = u.cnt.toNat - 5
  context : u.Context

theorem RxUnit.Context.of_none {u : RxUnit} (h : u.result = .none) : u.Context := by
  rw [RxUnit.Context, h]
  trivial

theorem RxUnit.LrcOk.accumulated_ne_none {u : RxUnit} (h : u.LrcOk) : u.accumulated ≠ none := by
  obtain ⟨bytes, hacc, -⟩ := h
  simp [hacc]

/-- While the unit is busy there is no payload view (10_state.md R32). -/
theorem RxUnit.Ok.pvalid_of_busy {u : RxUnit} (h : u.Ok) (busy : u.state ≠ .idle) : u.pvalid = false :=
  Bool.eq_false_iff.2 fun hp => busy (h.view hp).1

theorem RxUnit.not_framing_of_hunt {u : RxUnit} (hunt : u.state = .hunt) : ¬ u.Framing := by
  rintro (h | h) <;> exact nomatch hunt.symm.trans h

section

variable {s : State} {epoch : Nat} {isOpen : Bool} {b : Byte}

/-- What R49 says of both phases of a frame in progress. -/
theorem RuleR49.of_framing (h : RuleR49 s) (framing : s.rx.Framing) :
    1 ≤ s.rx.cnt.toNat ∧ s.rx.cnt.toNat ≤ 65538 ∧ 1 ≤ s.rx.need.toNat ∧ s.rx.buf.read? 0 = some stx := by
  have hlen := s.rx.len.isLt
  obtain hdr | body := framing
  · obtain ⟨h1, h3, hneed, hstx⟩ := h.hdr hdr
    exact ⟨by omega, by omega, by omega, hstx⟩
  · obtain ⟨h1, h4, hmax, hneed, hstx, -⟩ := h.body body
    exact ⟨by omega, by omega, by omega, hstx⟩

/-- A frame in progress has an index left in `rx_buf` (10_state.md R37). -/
theorem RuleR49.room (h : RuleR49 s) (framing : s.rx.Framing) : s.rx.cnt.toNat < Config.rxBufSize := by
  obtain ⟨-, hcnt, -, -⟩ := h.of_framing framing
  exact Nat.lt_of_le_of_lt hcnt (by decide)

theorem RuleR49.lrcOk (h : RuleR49 s) (busy : s.rx.state ≠ .idle) : s.rx.LrcOk := (h.busy busy).2

/-- The byte that fills a phase is the one still needed. -/
theorem RuleR49.need_eq_one (h : RuleR49 s) (framing : s.rx.Framing) (last : (storeByte b s.rx).need = 0) :
    s.rx.need.toNat = 1 := by
  obtain ⟨-, -, hpos, -⟩ := h.of_framing framing
  have hneed := storeByte_need b hpos
  rw [last] at hneed
  simp at hneed
  omega

/-- A whole frame stands in the buffer, as long as its header declares, and waits for `validate`. -/
structure RxUnit.WholeFrame (u : RxUnit) : Prop where
  buf : u.buf.wf Config.rxBufSize = true
  cnt : u.cnt.toNat = u.len.toNat + 4
  recv : u.recv = true → u.strict = false
  start : u.buf.read? 0 = some stx
  lrcOk : u.LrcOk
  declared : u.Declared
  pvalid : u.pvalid = false

theorem RxUnit.WholeFrame.cnt_le {u : RxUnit} (h : u.WholeFrame) : u.cnt.toNat ≤ 65539 := by
  have hcnt := h.cnt
  have hlen := u.len.isLt
  omega

theorem RxUnit.WholeFrame.validate_ok {u : RxUnit} (h : u.WholeFrame) : (validate u).Ok := by
  have hacc := h.lrcOk.accumulated_ne_none
  obtain ⟨-, -, hv⟩ | ⟨-, -, hv⟩ | ⟨hlrc, hv⟩ := validate_cases u <;> rw [hv]
  · exact ⟨h.buf, hacc, h.cnt_le, h.recv, nofun, nofun, fun hp => (nomatch h.pvalid.symm.trans hp), h.declared⟩
  · exact ⟨h.buf, hacc, h.cnt_le, h.recv, nofun, nofun, fun _ => ⟨rfl, rfl, payloadView_plen_toNat u⟩, h.declared⟩
  · obtain ⟨bytes, hbytes, hfold⟩ := h.lrcOk
    exact ⟨h.buf, hacc, h.cnt_le, h.recv, nofun, nofun, fun hp => (nomatch h.pvalid.symm.trans hp),
      ⟨h.cnt, h.start, bytes, hbytes, hfold, hlrc⟩, h.declared⟩

theorem storeByte_wf {u : RxUnit} (b : Byte) (h : u.buf.wf Config.rxBufSize = true)
    (room : u.cnt.toNat < Config.rxBufSize) : (storeByte b u).buf.wf Config.rxBufSize = true :=
  Memory.wf_write b h room

/-- Storing a byte of a frame keeps all but what R49 says of the phase. -/
theorem RxUnit.Ok.after_storeByte (h : s.rx.Ok) (h49 : RuleR49 s) (framing : s.rx.Framing) :
    (storeByte b s.rx).Ok := by
  have room := h49.room framing
  have hcnt := storeByte_cnt b room
  have hres : (storeByte b s.rx).result = .none := (h49.busy framing.busy).1
  exact
    { buf := storeByte_wf b h.buf room
      accumulated := (storeByte_lrcOk b (h49.lrcOk framing.busy) room).accumulated_ne_none
      cnt := by rw [hcnt]; exact room
      recv := h.recv
      huntTimer := h.huntTimer
      frameTimer := h.frameTimer
      view := fun hp => absurd (h.view hp).1 framing.busy
      context := .of_none hres }

/-- The header that fills up with no body to follow is a whole frame (42_frame_reader.md R183). -/
theorem RxUnit.Ok.wholeFrame_of_header (h : s.rx.Ok) (h49 : RuleR49 s) (hdr : s.rx.state = .hdr)
    (last : (storeByte b s.rx).need = 0) (declares : declaredLength epoch (storeByte b s.rx) = 0) :
    RxUnit.WholeFrame { storeByte b s.rx with len := 0 } := by
  have framing : s.rx.Framing := .inl hdr
  have room := h49.room framing
  have hlrc := storeByte_lrcOk b (h49.lrcOk framing.busy) room
  have hcnt := storeByte_cnt b room
  have hneed := h49.need_eq_one framing last
  obtain ⟨h1, h3, hphase, hstx⟩ := h49.hdr hdr
  obtain ⟨hi, hhi⟩ := hlrc.read_below (i := 1) (by omega)
  obtain ⟨lo, hlo⟩ := hlrc.read_below (i := 2) (by omega)
  have hcnt4 : (storeByte b s.rx).cnt.toNat = 4 := by omega
  exact
    { buf := storeByte_wf b h.buf room
      cnt := hcnt4
      recv := h.recv
      start := (storeByte_read_below b (by omega)).trans hstx
      lrcOk := hlrc
      declared := ⟨hi, lo, hhi, hlo, declares.symm.trans (declaredLength_of_read? epoch hhi hlo)⟩
      pvalid := h.pvalid_of_busy framing.busy }

/-- The body that fills up makes the frame whole. -/
theorem RxUnit.Ok.wholeFrame_of_body (h : s.rx.Ok) (h49 : RuleR49 s) (body : s.rx.state = .body)
    (last : (storeByte b s.rx).need = 0) : (storeByte b s.rx).WholeFrame := by
  have framing : s.rx.Framing := .inr body
  have room := h49.room framing
  have hcnt := storeByte_cnt b room
  have hneed := h49.need_eq_one framing last
  obtain ⟨h1, h4, hmax, hphase, hstx, hi, lo, hhi, hlo, hfield⟩ := h49.body body
  have hlen : (storeByte b s.rx).len = s.rx.len := rfl
  exact
    { buf := storeByte_wf b h.buf room
      cnt := by rw [hlen]; omega
      recv := h.recv
      start := (storeByte_read_below b (by omega)).trans hstx
      lrcOk := storeByte_lrcOk b (h49.lrcOk framing.busy) room
      declared := ⟨hi, lo, (storeByte_read_below b (by omega)).trans hhi,
        (storeByte_read_below b (by omega)).trans hlo, hfield⟩
      pvalid := h.pvalid_of_busy framing.busy }

/-- Any answer of the source keeps the RX unit's part of the invariant. -/
theorem RxAnswer.keeps_ok {a : SrcAnswer} {u : RxUnit} (m : RxAnswer epoch s.rx a u) (h49 : RuleR49 s)
    (h : s.rx.Ok) : u.Ok := by
  cases m with
  | timeout hunt =>
    have busy : s.rx.state ≠ .idle := by simp [hunt]
    exact { h with
      huntTimer := nofun, frameTimer := nofun, view := fun hp => absurd (h.view hp).1 busy, context := h49.hunt hunt }
  | short framing =>
    obtain ⟨h1, hmax, -, hstx⟩ := h49.of_framing framing
    exact { h with
      huntTimer := nofun, frameTimer := nofun, view := fun hp => absurd (h.view hp).1 framing.busy,
      context := ⟨h1, hmax, hstx⟩ }
  | count _ running =>
    obtain ⟨hzero, -⟩ | ⟨-, -, htmr⟩ := countTick_cases .length s.rx
    · exact absurd hzero running
    · have hle : (s.rx.tmr - 1).toNat ≤ s.rx.tmr.toNat := by omega
      exact { h with
        huntTimer := fun hs => hle.trans (h.huntTimer hs), frameTimer := fun hs => hle.trans (h.frameTimer hs) }
  | start hunt =>
    have busy : s.rx.state ≠ .idle := by simp [hunt]
    exact
      { buf := Memory.wf_write stx h.buf (by decide)
        accumulated := (huntStart_lrcOk s.rx).accumulated_ne_none
        cnt := by simp [huntStart]
        recv := h.recv
        huntTimer := nofun
        frameTimer := fun _ => le_rfl
        view := fun hp => absurd (h.view hp).1 busy
        context := .of_none (u := huntStart s.rx) (h49.busy busy).1 }
  | noStart b hunt other strict =>
    have busy : s.rx.state ≠ .idle := by simp [hunt]
    have hread : (huntStrict b s.rx).buf.read? 0 = some b := Memory.read?_write_self s.rx.buf 0 b
    have read : s.rx.recv = false := Bool.eq_false_iff.2 fun hr => nomatch (h.recv hr).symm.trans strict
    exact
      { buf := Memory.wf_write b h.buf (by decide)
        accumulated := by simp [huntStrict_accumulated]
        cnt := by simp [huntStrict]
        recv := h.recv
        huntTimer := nofun
        frameTimer := nofun
        view := fun hp => absurd (h.view hp).1 busy
        context := ⟨rfl, fun hstx => other (Option.some.inj (hread.symm.trans hstx)), read, strict⟩ }
  | noise b hunt =>
    exact { h with
      huntTimer := fun _ => le_rfl, frameTimer := fun framing => absurd framing (RxUnit.not_framing_of_hunt hunt) }
  | stored b framing => exact h.after_storeByte h49 framing
  | header b hdr last =>
    have stored := h.after_storeByte (b := b) h49 (.inl hdr)
    exact { stored with
      huntTimer := nofun, frameTimer := fun _ => le_rfl,
      view := fun hp => (nomatch hdr.symm.trans (stored.view hp).1),
      context := .of_none (h49.busy (by simp [hdr])).1 }
  | headerOnly b hdr last declares => exact (h.wholeFrame_of_header h49 hdr last declares).validate_ok
  | frame b body last => exact (h.wholeFrame_of_body h49 body last).validate_ok

theorem RxUnit.reset_ok : RxUnit.reset.Ok where
  buf := rfl
  accumulated := nofun
  cnt := Nat.zero_le _
  recv := nofun
  huntTimer := nofun
  frameTimer := nofun
  view := nofun
  context := trivial

/-- Any move of the RX unit keeps its part of the invariant. -/
theorem RxMove.keeps_ok {u : RxUnit} (m : RxMove epoch isOpen s.rx u) (h49 : RuleR49 s) (h : s.rx.Ok) : u.Ok := by
  cases m with
  | reject => exact { h with }
  | timeouts => exact { h with }
  | parse idle => exact { h with view := fun _ => ⟨idle, rfl, payloadView_plen_toNat s.rx.accept⟩ }
  | issue recv strict _ _ operand =>
    exact
      { buf := h.buf
        accumulated := nofun
        cnt := Nat.zero_le _
        recv := operand
        huntTimer := fun _ => le_rfl
        frameTimer := nofun
        view := nofun
        context := trivial }
  | answer a busy => exact (rxOn_answer epoch a busy).keeps_ok h49 h
  | reset => exact RxUnit.reset_ok

theorem RxUnit.Ok.of_moves {u : RxUnit} (h : s.rx.Ok) (h49 : RuleR49 s)
    (m : ReflTransGen (RxMove epoch isOpen) s.rx u) : u.Ok := by
  induction m with
  | refl => exact h
  | tail hms hm ih => exact hm.keeps_ok (h49.setRx_of_moves hms) ih

/-- A unit that a move makes busy has its source (60_exceptions.md R261). -/
theorem RxMove.source_of_busy {u u' : RxUnit} (m : RxMove epoch isOpen u u') (busy : u'.state ≠ .idle) :
    u.state ≠ .idle ∨ isOpen = true := by
  cases m with
  | reject => exact .inl busy
  | timeouts => exact .inl busy
  | parse idle => exact absurd idle busy
  | issue _ _ _ source => exact .inr source
  | answer _ wasBusy => exact .inl wasBusy
  | reset => exact absurd rfl busy

theorem source_of_busy_of_moves {u u' : RxUnit} (m : ReflTransGen (RxMove epoch isOpen) u u')
    (busy : u'.state ≠ .idle) : u.state ≠ .idle ∨ isOpen = true := by
  induction m with
  | refl => exact .inl busy
  | tail _ hm ih => exact (hm.source_of_busy busy).elim ih .inr

end

/-! The TX unit. -/

/-- What the invariant says of the TX unit besides R49. -/
structure TxUnit.Ok (u : TxUnit) : Prop where
  pay : u.pay.wf Config.txPaySize = true
  frm : u.frm.wf Config.txFrmSize = true
  built : u.built ≠ none
  flen : u.flen.toNat ≤ 65539
  idx : u.idx.toNat ≤ u.flen.toNat

section

variable {epoch : Nat} {isOpen : Bool} {u u' : TxUnit}

theorem tooLong_eq_false_iff (u : TxUnit) : tooLong u = false ↔ u.plen.toNat ≤ 65534 :=
  decide_eq_false_iff_not.trans Nat.not_lt

/-- The frame BUILD and SEND load is the first `tx_flen` bytes of `tx_frm` (41_frame_build_parse.md R141). -/
theorem loadFrame_built (epoch : Nat) (u : TxUnit) :
    (loadFrame epoch u).built = some (buildFrame (u.payload epoch)) := by
  have hlen : (loadFrame epoch u).flen.toNat = (buildFrame (u.payload epoch)).length := by
    rw [loadFrame_flen, buildFrame_length, TxUnit.payload_length]
  rw [TxUnit.built, hlen]
  exact Memory.firstBytes?_writeList _ _

theorem TxUnit.Ok.after_loadFrame (h : u.Ok) (short : tooLong u = false) : (loadFrame epoch u).Ok := by
  have hplen := (tooLong_eq_false_iff u).1 short
  have hflen := loadFrame_flen epoch u
  have hsize : 0 + (buildFrame (u.payload epoch)).length ≤ 65539 := by
    rw [buildFrame_length, TxUnit.payload_length]
    omega
  exact
    { pay := h.pay
      frm := Memory.wf_writeList _ h.frm hsize
      built := by simp [loadFrame_built]
      flen := by omega
      idx := Nat.zero_le _ }

theorem TxUnit.Ok.after_buildIssue (h : u.Ok) : (buildIssue epoch u).Ok := by
  unfold buildIssue
  split
  · exact { h with }
  next short => exact { h.after_loadFrame (epoch := epoch) (Bool.eq_false_iff.2 short) with }

theorem TxUnit.Ok.after_sendIssue (h : u.Ok) : (sendIssue epoch u).Ok := by
  unfold sendIssue
  split
  · exact { h with }
  next short => exact { h.after_loadFrame (epoch := epoch) (Bool.eq_false_iff.2 short) with }

/-- One more byte is emitted of a frame that is not through. -/
theorem idx_succ_le {u : TxUnit} (h : u.idx.toNat < u.flen.toNat) : (u.idx + 1).toNat ≤ u.flen.toNat := by
  rw [BitVec.toNat_add]
  exact Nat.le_trans (Nat.mod_le _ _) h

theorem TxUnit.Ok.after_txAdvance (h : u.Ok) (inside : u.idx.toNat < u.flen.toNat) : (txAdvance u).Ok := by
  unfold txAdvance
  split <;> exact { h with idx := idx_succ_le inside }

theorem TxUnit.reset_ok : TxUnit.reset.Ok := ⟨rfl, rfl, nofun, Nat.zero_le _, le_rfl⟩

/-- Any move of the TX unit keeps its part of the invariant. -/
theorem TxMove.keeps_ok (m : TxMove epoch isOpen u u') (hemit : u.EmitOk) (h : u.Ok) : u'.Ok := by
  cases m with
  | reject => exact { h with }
  | setPlen => exact { h with }
  | setSeed => exact { h with }
  | setPay i v _ room => exact { h with pay := Memory.wf_write v h.pay room }
  | checksum => exact { h with }
  | build => exact TxUnit.Ok.after_buildIssue (u := u.accept) { h with }
  | send => exact TxUnit.Ok.after_sendIssue (u := u.accept) { h with }
  | emit busy => exact h.after_txAdvance (hemit busy).1
  | reset => exact TxUnit.reset_ok

theorem TxMove.source_of_busy (m : TxMove epoch isOpen u u') (busy : u'.state ≠ .idle) :
    u.state ≠ .idle ∨ isOpen = true := by
  cases m with
  | reject => exact .inl busy
  | setPlen => exact .inl busy
  | setSeed => exact .inl busy
  | setPay => exact .inl busy
  | checksum => exact .inl busy
  | build idle => exact absurd (buildIssue_state epoch (u := u.accept) idle) busy
  | send _ source =>
    cases hlong : tooLong u with
    | true =>
      rw [sendIssue_of_tooLong epoch (u := u.accept) hlong] at busy
      exact absurd rfl busy
    | false => exact .inr (source hlong)
  | emit _ source => exact .inr source
  | reset => exact absurd rfl busy

end

/-! The whole machine. -/

variable {s t : State}

/-- The contexts of a state, result by result, are those of its RX unit. -/
theorem contextOk_iff (s : State) : ContextOk s ↔ s.rx.Context := by
  refine ⟨fun h => ?_, fun h => ?_⟩
  · unfold RxUnit.Context
    split
    next => trivial
    next hr => exact h.declared (.inl hr)
    next hr => exact h.timeout hr
    next hr => exact h.start hr
    next hr => exact h.length hr
    next hr => exact ⟨h.data hr, h.declared (.inr hr)⟩
  · unfold RxUnit.Context at h
    constructor
    case timeout => intro hr; rw [hr] at h; exact h
    case start => intro hr; rw [hr] at h; exact h
    case length => intro hr; rw [hr] at h; exact h
    case data => intro hr; rw [hr] at h; exact h.1
    case declared =>
      rintro (hr | hr) <;> rw [hr] at h
      · exact h
      · exact h.2

/-- The invariant, unit by unit. -/
theorem State.inv_iff (s : State) : s.Inv ↔ RuleR49 s ∧ s.rx.Ok ∧ s.tx.Ok ∧ SourceOk s := by
  constructor
  · rintro ⟨r49, buffers, ranges, context, source⟩
    exact ⟨r49,
      ⟨buffers.rxBuf, buffers.accumulated, ranges.cnt, ranges.recv, ranges.huntTimer, ranges.frameTimer, ranges.view,
        (contextOk_iff s).1 context⟩,
      ⟨buffers.txPay, buffers.txFrm, buffers.built, ranges.flen, ranges.idx⟩, source⟩
  · rintro ⟨r49, rx, tx, source⟩
    exact ⟨r49, ⟨rx.buf, tx.pay, tx.frm, rx.accumulated, tx.built⟩,
      ⟨rx.cnt, tx.flen, tx.idx, rx.huntTimer, rx.frameTimer, rx.view, rx.recv⟩, (contextOk_iff s).2 rx.context, source⟩

/-- Settles O49: no clause asks anything of idle units with no result and empty buffers but their ranges. -/
theorem resetSatisfiesInvariant : Obligations.ResetSatisfiesInvariant :=
  (State.inv_iff _).2
    ⟨ruleR49_of_units_reset rfl rfl, RxUnit.reset_ok, TxUnit.reset_ok, fun _ => rfl⟩

/-- Moves of the units on a source whose health stays keep the source clause. -/
theorem Moves.keeps_sourceOk (m : Moves s t) (hopen : t.sourceOpen = s.sourceOpen) (h : SourceOk s) : SourceOk t := by
  intro busy
  rw [hopen]
  obtain busy | busy := busy
  · exact (source_of_busy_of_moves m.rx busy).elim (fun hb => h (.inl hb)) id
  · obtain heq | hm := (Relation.reflGen_iff _ _ _).1 m.tx
    · exact h (.inr (heq ▸ busy))
    · exact (hm.source_of_busy busy).elim (fun hb => h (.inr hb)) id

theorem Moves.keeps_inv (m : Moves s t) (source : SourceOk t) (h : s.Inv) : t.Inv := by
  obtain ⟨h49, hrx, htx, -⟩ := (State.inv_iff s).1 h
  refine (State.inv_iff t).2 ⟨m.keeps_ruleR49 h49, hrx.of_moves h49 m.rx, ?_, source⟩
  obtain heq | hm := (Relation.reflGen_iff _ _ _).1 m.tx
  · exact heq ▸ htx
  · exact hm.keeps_ok h49.emit htx

/-- Every turn of every agent keeps the invariant. -/
theorem perform_keeps_inv {turn : Turn} (h : s.Inv) (hp : perform turn s = .next t) : t.Inv := by
  refine (perform_moves hp).keeps_inv ?_ h
  by_cases hturn : ∃ event, turn = .source event
  · obtain ⟨event, rfl⟩ := hturn
    obtain ⟨rfl, hbusy⟩ := sourceTurn_cases hp
    exact fun busy => decide_eq_true (hbusy busy).1
  · exact (perform_moves hp).keeps_sourceOk (perform_sourceOpen hp (not_exists.1 hturn)) h.source

/-- The invariant is about the units and the source's health alone. -/
theorem State.Inv.of_units_eq (h : s.Inv) (hrx : t.rx = s.rx) (htx : t.tx = s.tx)
    (hopen : t.sourceOpen = s.sourceOpen) : t.Inv :=
  have m : Moves s t := .of_units_eq hrx htx
  m.keeps_inv (m.keeps_sourceOk hopen h.source) h

theorem takeTurn_keeps_inv (h : s.Inv) : (takeTurn s).2.Inv := by
  obtain ⟨l, n, ht⟩ := takeTurn_frame s
  rw [ht]
  exact h.of_units_eq rfl rfl rfl

/-- Settles O50: a step is one turn, and every turn makes moves that keep what the invariant says of each unit. -/
theorem stepKeepsInvariant : Obligations.StepKeepsInvariant := fun _ _ h hstep =>
  perform_keeps_inv (takeTurn_keeps_inv h) hstep

end Sys2Proof.Machine
end

section
/-! No run reaches an index outside a buffer (10_state.md R37). -/

namespace Sys2Proof.Machine

variable {s : State}

/-- The RX unit's turn completes from every state of the invariant: a busy unit has its source, and a frame in progress
has an index left in `rx_buf`. -/
theorem State.Inv.rxTurn_completes (h : s.Inv) : ∃ t : State, rxTurn s = .next t := by
  by_cases idle : s.rx.state = .idle
  · exact ⟨s, rxTurn_of_idle idle⟩
  · refine ⟨_, rxTurn_of_busy idle (h.source (.inl idle)) fun _ _ hunt => h.r49.room ?_⟩
    cases hs : s.rx.state with
    | idle => exact absurd hs idle
    | hunt => exact absurd hs hunt
    | hdr => exact .inl hs
    | body => exact .inr hs

theorem State.Inv.rxTurns_completes (h : s.Inv) (n : Nat) : ∃ t : State, rxTurns n s = .next t := by
  induction n generalizing s with
  | zero => exact ⟨s, rfl⟩
  | succ n ih =>
    obtain ⟨m, hm⟩ := h.rxTurn_completes
    obtain ⟨t, ht⟩ := ih (perform_keeps_inv (turn := .rx) h hm)
    exact ⟨t, (rxTurns_succ n hm).trans ht⟩

theorem State.Inv.present (h : s.Inv) (bytes : List Byte) : (present bytes s).Inv := h.of_units_eq rfl rfl rfl

theorem State.Inv.wireBurst_completes (h : s.Inv) (bytes : List Byte) : ∃ t : State, wireBurst bytes s = .next t :=
  (h.present bytes).rxTurns_completes bytes.length

/-- Commands have no index that could leave a buffer. -/
theorem exec_cmd_ne_fault {i : Instr} (cmd : i.port = .cmd) (r : Fault) : exec i s ≠ .fault r := by
  have ofSource (begins : Bool) (t : State) : onOpenSource begins s (.next t) ≠ .fault r := by
    unfold onOpenSource
    split <;> nofun
  cases i with
  | nop => nofun
  | checksum => nofun
  | build => nofun
  | send => exact ofSource _ _
  | parse => nofun
  | read strict => exact ofSource _ _
  | recv => exact ofSource _ _
  | reservedCmd op strict zero => nofun
  | frame payload => exact nomatch cmd
  | stxHunt => exact nomatch cmd

theorem State.Inv.exec_wire_ne_fault (h : s.Inv) {i : Instr} (wire : i.port = .wire) (r : Fault) :
    exec i s ≠ .fault r := by
  have ofBurst (bytes : List Byte) : wireBurst bytes s ≠ .fault r := by
    obtain ⟨t, ht⟩ := h.wireBurst_completes bytes
    rw [ht]
    nofun
  cases i with
  | frame payload => exact ofBurst _
  | stxHunt => exact ofBurst _
  | _ => exact nomatch wire

theorem State.Inv.runWire_ne_fault (h : s.Inv) (bytes : List Byte) (r : Fault) : runWire bytes s ≠ .fault r := by
  unfold runWire
  split
  next i hi => exact h.exec_wire_ne_fault (decodeWire_port hi) r
  next =>
    obtain ⟨t, ht⟩ := h.wireBurst_completes bytes
    rw [ht]
    nofun

theorem hostTurn_ne_fault (access : HostAccess) (r : Fault) : hostTurn access s ≠ .fault r := by
  cases access with
  | read reg =>
    unfold hostTurn hostRead
    dsimp only
    split <;> nofun
  | write reg v =>
    by_cases hr : regOf reg = .cmd
    · rw [hostTurn_write_cmd v s hr]
      exact exec_cmd_ne_fault (decodeCmd_port _) r
    · rw [hostTurn_write_of_ne_cmd v s hr]
      nofun

theorem sourceTurn_ne_fault (event : SourceEvent) (r : Fault) : sourceTurn event s ≠ .fault r := by
  cases event <;> unfold sourceTurn <;> dsimp only <;> split <;> nofun

/-- A SEND in flight has a byte of `tx_frm` left to emit. -/
theorem State.Inv.txTurn_ne_fault (h : s.Inv) (ready : Bool) (r : Fault) : txTurn ready s ≠ .fault r := by
  unfold txTurn
  split
  · nofun
  next hgo =>
    split
    · nofun
    · have emit : s.tx.state = .emit := by
        cases hs : s.tx.state with
        | idle => exact absurd (.inl hs) hgo
        | emit => rfl
      obtain ⟨hidx, -, -⟩ := h.r49.emit emit
      have hflen := h.ranges.flen
      have hsize : Config.txFrmSize = 65539 := rfl
      rw [if_neg (by omega)]
      nofun

theorem State.Inv.perform_ne_fault (h : s.Inv) (turn : Turn) (r : Fault) : perform turn s ≠ .fault r := by
  cases turn with
  | host access => exact hostTurn_ne_fault access r
  | rx =>
    obtain ⟨t, ht⟩ := h.rxTurn_completes
    exact fun hr => nomatch ht.symm.trans hr
  | tx ready => exact h.txTurn_ne_fault ready r
  | wire bytes => exact h.runWire_ne_fault bytes r
  | source event => exact sourceTurn_ne_fault event r
  | reset => nofun

/-- Settles O52: of all turns only those of the units use an index, and the invariant bounds these. -/
theorem noStepFaults : Obligations.NoStepFaults := fun s r h =>
  State.Inv.perform_ne_fault (takeTurn_keeps_inv h) (takeTurn s).1 r

end Sys2Proof.Machine
end
section
/-! BUILD and SEND at issue: the frame in `tx_frm` byte by byte (41_frame_build_parse.md R141, R143). -/

namespace Sys2Proof.Machine

theorem loadFrame_flen_eq (epoch : Nat) (u : TxUnit) :
    (loadFrame epoch u).flen = BitVec.ofNat 17 (u.plen.toNat + 5) :=
  BitVec.eq_of_toNat_eq (by
    have hplen := u.plen.isLt
    rw [loadFrame_flen, BitVec.toNat_ofNat, Nat.mod_eq_of_lt (by omega)])

/-- Loading a frame writes the frame's bytes, its length, its checksum byte and `tx_idx`. -/
theorem loadFrame_eq (epoch : Nat) (u : TxUnit) :
    loadFrame epoch u = { u with
      frm := (loadFrame epoch u).frm
      flen := BitVec.ofNat 17 (u.plen.toNat + 5)
      lrc := (loadFrame epoch u).lrc
      idx := 0 } := by
  rw [← loadFrame_flen_eq epoch u]
  rfl

/-- The frame stands at the first `tx_plen + 5` indexes, and the bytes from there on are as before. -/
theorem loadFrame_read? (epoch : Nat) (u : TxUnit) (i : Nat) :
    (loadFrame epoch u).frm.read? i =
      if i < u.plen.toNat + 5 then (buildFrame (u.payload epoch))[i]? else u.frm.read? i := by
  have h := Memory.read?_writeList (buildFrame (u.payload epoch)) u.frm 0 i
  simp only [buildFrame_length, TxUnit.payload_length, Nat.zero_le, true_and, Nat.zero_add, Nat.sub_zero] at h
  exact h

/-- What BUILD and SEND leave in the frame buffer and in `tx_lrc`. -/
theorem loadFrame_holds (epoch : Nat) (u : TxUnit) :
    (∀ i, i < u.plen.toNat + 5 → (loadFrame epoch u).frm.read? i = (buildFrame (u.payload epoch))[i]?) ∧
    (∀ i, u.plen.toNat + 5 ≤ i → (loadFrame epoch u).frm.read? i = u.frm.read? i) ∧
    (buildFrame (u.payload epoch))[u.plen.toNat + 4]? = some (loadFrame epoch u).lrc := by
  refine ⟨fun i hi => ?_, fun i hi => ?_, ?_⟩
  · rw [loadFrame_read?, if_pos hi]
  · rw [loadFrame_read?, if_neg (by omega)]
  · rw [← TxUnit.payload_length u epoch]
    exact buildFrame_checksum_byte _

variable {s : State}

theorem tooLong_of_le {u : TxUnit} (h : u.plen.toNat ≤ 65534) : tooLong u = false := (tooLong_eq_false_iff u).2 h

theorem buildIssue_of_short {u : TxUnit} (epoch : Nat) (h : u.plen.toNat ≤ 65534) :
    buildIssue epoch u = { loadFrame epoch u with result := .ok } :=
  if_neg (Bool.eq_false_iff.1 (tooLong_of_le h))

theorem sendIssue_of_short {u : TxUnit} (epoch : Nat) (h : u.plen.toNat ≤ 65534) :
    sendIssue epoch u = { loadFrame epoch u with result := .none, state := .emit } :=
  if_neg (Bool.eq_false_iff.1 (tooLong_of_le h))

/-- BUILD of a payload that is not too long. -/
theorem exec_build_of_short (idle : s.tx.state = .idle) (h : s.tx.plen.toNat ≤ 65534) :
    exec .build s = .next (s.setTx { loadFrame s.epoch s.tx.accept with result := .ok }) :=
  (txCommand_of_idle (buildIssue s.epoch) idle).trans
    (congrArg (fun u => Host.Outcome.next (s.setTx u)) (buildIssue_of_short s.epoch h))

/-- SEND of a payload that is not too long, on an open source. -/
theorem exec_send_of_short (idle : s.tx.state = .idle) (h : s.tx.plen.toNat ≤ 65534) (hopen : s.sourceOpen = true) :
    exec .send s = .next (s.setTx { loadFrame s.epoch s.tx.accept with result := .none, state := .emit }) :=
  (exec_send_of_idle idle (.inl hopen)).trans
    (congrArg (fun u => Host.Outcome.next (s.setTx u)) (sendIssue_of_short s.epoch h))

/-- Settles O10: BUILD is the TX command that loads the frame, or raises `TX_LEN`. -/
theorem buildResult : Obligations.BuildResult := by
  intro s
  refine ⟨rfl, txCommand_of_busy _, fun idle hlong => exec_build_of_tooLong idle ((tooLong_eq_true_iff s.tx).2 hlong),
    fun idle hshort => ⟨_, exec_build_of_short idle hshort, ?_, loadFrame_flen s.epoch s.tx.accept,
      loadFrame_holds s.epoch s.tx.accept⟩⟩
  rw [loadFrame_eq]
  rfl

/-! Operations whose source is not open at issue (60_exceptions.md R255, R261; log 7). -/

theorem exec_send_of_closed (idle : s.tx.state = .idle) (h : s.tx.plen.toNat ≤ 65534) (closed : s.sourceOpen = false) :
    exec .send s = .refused .sourceUnavailable := by
  have begins : (!s.tx.busy && !tooLong s.tx) = true := by
    rw [(TxUnit.busy_eq_false s.tx).2 idle, tooLong_of_le h]
    rfl
  change onOpenSource (!s.tx.busy && !tooLong s.tx) s _ = _
  rw [begins, onOpenSource_of_closed _ closed]

theorem onOpenSource_idle_of_closed (r : Result) (idle : s.rx.state = .idle) (closed : s.sourceOpen = false) :
    onOpenSource (!s.rx.busy) s r = .refused .sourceUnavailable := by
  rw [(RxUnit.busy_eq_false s.rx).2 idle]
  exact onOpenSource_of_closed r closed

theorem exec_read_of_closed (strict : Bool) (idle : s.rx.state = .idle) (closed : s.sourceOpen = false) :
    exec (.read strict) s = .refused .sourceUnavailable := onOpenSource_idle_of_closed _ idle closed

theorem exec_recv_of_closed (idle : s.rx.state = .idle) (closed : s.sourceOpen = false) :
    exec .recv s = .refused .sourceUnavailable := onOpenSource_idle_of_closed _ idle closed

/-- Settles O12: SEND is the TX command that loads the frame and enters EMIT, or raises `TX_LEN`. -/
theorem sendIssueResult : Obligations.SendIssueResult := by
  intro s
  refine ⟨rfl, exec_send_of_busy, fun idle hlong => exec_send_of_tooLong idle ((tooLong_eq_true_iff s.tx).2 hlong),
    exec_send_of_closed, fun idle hshort hopen => ⟨_, exec_send_of_short idle hshort hopen, ?_,
      loadFrame_holds s.epoch s.tx.accept⟩⟩
  rw [loadFrame_eq]
  rfl

/-- Settles O16: the issue of READ by the state of its unit and of its source. -/
theorem readIssueResult : Obligations.ReadIssueResult := by
  intro s strict
  exact ⟨by cases strict <;> rfl, exec_read_of_busy strict, exec_read_of_closed strict, exec_read_issued strict⟩

/-- Settles O17: the issue of RECV by the state of its source. -/
theorem recvIssueResult : Obligations.RecvIssueResult := fun _ idle =>
  ⟨exec_recv_of_closed idle, exec_recv_issued idle⟩

/-! Operations in flight on a source that is not open. -/

theorem rxTurn_of_closed (busy : s.rx.state ≠ .idle) (closed : s.sourceOpen = false) :
    rxTurn s = .refused .sourceUnavailable := by
  rw [rxTurn, if_neg busy, if_pos closed]

theorem txTurn_of_closed (busy : s.tx.state ≠ .idle) (closed : s.sourceOpen = false) :
    txTurn true s = .refused .sourceUnavailable := by
  rw [txTurn, if_neg (by simp [busy]), if_pos closed]

/-- Settles O59: each use of a source that is not open, at issue, in flight and by the collaborator. -/
theorem sourceFailureIsRefused : Obligations.SourceFailureIsRefused := by
  intro s
  have inUse (busy : s.rx.state ≠ .idle ∨ s.tx.state ≠ .idle) : s.sourceInUse = true :=
    (State.sourceInUse_eq_true s).2 busy
  refine ⟨fun closed => ⟨fun idle w hw => ?_, fun idle hshort => exec_send_of_closed idle hshort closed,
    fun busy => if_pos ⟨inUse busy, closed⟩, fun busy => rxTurn_of_closed busy closed,
    fun busy => txTurn_of_closed busy closed⟩, fun busy => if_pos (inUse busy)⟩
  simp only [List.mem_cons, List.not_mem_nil, or_false] at hw
  obtain rfl | rfl | rfl := hw
  · exact exec_read_of_closed false idle closed
  · exact exec_recv_of_closed idle closed
  · exact exec_read_of_closed true idle closed

end Sys2Proof.Machine
end

section
/-! Steps and runs of the machine on a listed agenda, and a SEND from its issue to its last byte
(41_frame_build_parse.md R144, R145). -/

namespace Sys2Proof.Machine

variable {s : State} {rest : List Turn}

theorem step_of_agenda {turn : Turn} (h : s.agenda = turn :: rest) : step s = perform turn (s.setAgenda rest) := by
  rw [step, takeTurn_cons h]

/-- Settles O5, by the two cases of `takeTurn`. -/
theorem stepPerformsTheNextTurn : Obligations.StepPerformsTheNextTurn := by
  refine fun s => ⟨fun _ _ => step_of_agenda, fun h => ?_⟩
  rw [step, takeTurn_nil h]

theorem issueCommand_of_decode {w : Byte} {i : Instr} (h : decode .cmd [w] = .ok i) : issueCommand w s = exec i s := by
  rw [issueCommand, h]

theorem runWire_of_decode {bytes : List Byte} {i : Instr} (h : decode .wire bytes = .ok i) :
    runWire bytes s = exec i s := by
  rw [runWire, h]

/-- Settles O6: `CMD` is register 0, and both kinds of turn execute what the decoder gives. -/
theorem stepRunsTheDecodedInstruction : Obligations.StepRunsTheDecodedInstruction := by
  refine fun s rest i => ⟨fun v hagenda hdecode => ?_, fun bytes hagenda hdecode => ?_⟩
  · exact (step_of_agenda hagenda).trans (issueCommand_of_decode hdecode)
  · exact (step_of_agenda hagenda).trans (runWire_of_decode hdecode)

theorem run_succ {n : Nat} {m : State} (h : step s = .next m) :
    Host.Core.run core (n + 1) s = Host.Core.run core n m := by
  have h' : core.step s = .next m := h
  simp only [Host.Core.run, h']

/-- TX turns of an idle unit only use up the agenda (41_frame_build_parse.md R144). -/
theorem run_tx_of_idle (ready : List Bool) (idle : s.tx.state = .idle)
    (hagenda : s.agenda = ready.map Turn.tx ++ rest) :
    Host.Core.run core ready.length s = .next (s.setAgenda rest) := by
  induction ready generalizing s with
  | nil =>
    obtain rfl : s.agenda = rest := hagenda
    rfl
  | cons r ready ih =>
    have hstep : step s = .next (s.setAgenda (ready.map Turn.tx ++ rest)) :=
      (step_of_agenda hagenda).trans (txTurn_of_idle_or_not_ready (.inl idle))
    exact (run_succ hstep).trans (ih idle rfl)

/-- The byte a SEND emits next is that of the frame it has loaded. -/
theorem TxUnit.emitByte_of_built {u : TxUnit} {F : List Byte} (h : u.built = some F) (hidx : u.idx.toNat < u.flen.toNat)
    (epoch : Nat) : ∃ hF : u.idx.toNat < F.length, u.emitByte epoch = F[u.idx.toNat] := by
  obtain ⟨hlen, hread⟩ := (Memory.firstBytes?_eq_some_iff _ _ _).1 h
  have hF : u.idx.toNat < F.length := by omega
  exact ⟨hF, TxUnit.emitByte_of_read? _ ((hread _ hidx).trans (List.getElem?_eq_getElem hF))⟩

theorem idx_succ_toNat {u : TxUnit} (hidx : u.idx.toNat < u.flen.toNat) (hsize : u.flen.toNat ≤ 65539) :
    (u.idx + 1).toNat = u.idx.toNat + 1 := by
  have hone : (1 : Count).toNat = 1 := rfl
  rw [BitVec.toNat_add, hone]
  omega

/-- A SEND that gets as many turns with the sink ready as it has bytes left emits these bytes in order, and ends. -/
theorem run_tx_of_emit {F : List Byte} (ready : List Bool) (emit : s.tx.state = .emit) (hopen : s.sourceOpen = true)
    (hbuilt : s.tx.built = some F) (hsize : s.tx.flen.toNat ≤ 65539) (hidx : s.tx.idx.toNat < s.tx.flen.toNat)
    (hcount : s.tx.idx.toNat + ready.count true = s.tx.flen.toNat)
    (hagenda : s.agenda = ready.map Turn.tx ++ rest) :
    Host.Core.run core ready.length s =
      .next (((s.setOutgoing (s.outgoing ++ F.drop s.tx.idx.toNat)).setTx
        { s.tx with idx := s.tx.flen, state := .idle, result := .ok }).setAgenda rest) := by
  induction ready generalizing s with
  | nil => simp at hcount; omega
  | cons r ready ih =>
    cases r with
    | false =>
      have hstep : step s = .next (s.setAgenda (ready.map Turn.tx ++ rest)) :=
        (step_of_agenda hagenda).trans (txTurn_of_idle_or_not_ready (.inr rfl))
      rw [List.count_cons_of_ne (by decide)] at hcount
      exact (run_succ hstep).trans (ih emit hopen hbuilt hsize hidx hcount rfl)
    | true =>
      rw [List.count_cons_self] at hcount
      obtain ⟨hF, hbyte⟩ := TxUnit.emitByte_of_built hbuilt hidx s.epoch
      have hlen : F.length = s.tx.flen.toNat := ((Memory.firstBytes?_eq_some_iff _ _ _).1 hbuilt).1
      have hnext := idx_succ_toNat hidx hsize
      have hstep : step s = .next (((s.setAgenda (ready.map Turn.tx ++ rest)).setOutgoing
          (s.outgoing ++ [F[s.tx.idx.toNat]])).setTx (txAdvance s.tx)) := by
        rw [step_of_agenda hagenda, ← hbyte]
        exact txTurn_of_emit emit hopen (Nat.lt_of_lt_of_le hidx hsize)
      rw [List.length_cons, run_succ hstep, List.drop_eq_getElem_cons hF, txAdvance_of_emit emit]
      by_cases hlast : s.tx.idx + 1 = s.tx.flen
      · have hdrop : F.drop (s.tx.idx.toNat + 1) = [] :=
          List.drop_eq_nil_of_le (by rw [hlen, ← hlast, hnext])
        rw [if_pos hlast, if_pos hlast, hdrop, hlast]
        exact run_tx_of_idle ready rfl rfl
      · have hmore : (s.tx.idx + 1).toNat ≠ s.tx.flen.toNat := fun h => hlast (BitVec.eq_of_toNat_eq h)
        rw [if_neg hlast, if_neg hlast]
        refine (ih (s := ((s.setAgenda (ready.map Turn.tx ++ rest)).setOutgoing
          (s.outgoing ++ [F[s.tx.idx.toNat]])).setTx { s.tx with idx := s.tx.idx + 1, state := .emit })
          rfl hopen hbuilt hsize ?_ ?_ rfl).trans ?_
        · simp only [State.setTx_tx]; omega
        · simp only [State.setTx_tx]; omega
        · simp only [State.setTx_tx, State.setTx_outgoing, State.setOutgoing_outgoing, List.append_assoc,
            List.singleton_append, hnext]
          rfl

/-- Settles O14: the issue loads the frame, and the TX turns emit it from index 0 on. -/
theorem sendEmitsTheBuiltFrame : Obligations.SendEmitsTheBuiltFrame := by
  intro s ready rest v idle hopen hshort hv hcount hagenda
  have hissue : step s = .next ((s.setAgenda (ready.map Turn.tx ++ rest)).setTx
      { loadFrame s.epoch s.tx.accept with result := .none, state := .emit }) := by
    rw [step_of_agenda hagenda]
    refine (hostTurn_write_cmd v _ (r := 0) rfl).trans ?_
    rw [hv]
    exact exec_send_of_short (s := s.setAgenda (ready.map Turn.tx ++ rest)) idle hshort hopen
  have hflen : (loadFrame s.epoch s.tx.accept).flen.toNat = s.tx.plen.toNat + 5 := loadFrame_flen s.epoch s.tx.accept
  have hidx : (loadFrame s.epoch s.tx.accept).idx.toNat = 0 := rfl
  have hbuilt := loadFrame_built s.epoch s.tx.accept
  refine ⟨_, (run_succ hissue).trans (run_tx_of_emit ready rfl hopen hbuilt ?_ ?_ ?_ rfl), rfl, rfl, hflen, rfl, rfl,
    rfl, rfl, rfl, rfl, rfl, rfl⟩
  · simp only [State.setTx_tx]; omega
  · simp only [State.setTx_tx]; omega
  · simp only [State.setTx_tx]; omega

end Sys2Proof.Machine
end
section
/-! The host's register space: the status words, what a read gives and what a write does (10_state.md R39 to R46). -/

namespace Sys2Proof.Machine

/-! The status words, field by field (10_state.md R41, R42). -/

theorem txStatus_fields : ∀ (cmdErr : Bool) (result : BitVec 2) (busy : Bool),
    let w : Byte := 0#4 ++ BitVec.ofBool cmdErr ++ result ++ BitVec.ofBool busy
    w.extractLsb' 0 1 = BitVec.ofBool busy ∧ w.extractLsb' 1 2 = result ∧ w.extractLsb' 3 1 = BitVec.ofBool cmdErr ∧
      w.extractLsb' 4 4 = 0 := by
  decide

theorem rxStatus_fields : ∀ (pvalid : Bool) (state : BitVec 2) (cmdErr : Bool) (result : BitVec 3) (busy : Bool),
    let w : Byte := BitVec.ofBool pvalid ++ state ++ BitVec.ofBool cmdErr ++ result ++ BitVec.ofBool busy
    w.extractLsb' 0 1 = BitVec.ofBool busy ∧ w.extractLsb' 1 3 = result ∧ w.extractLsb' 4 1 = BitVec.ofBool cmdErr ∧
      w.extractLsb' 5 2 = state ∧ w.extractLsb' 7 1 = BitVec.ofBool pvalid := by
  decide

theorem ofBool_eq_ite (b : Bool) : BitVec.ofBool b = if b then 1 else 0 := by
  cases b <;> rfl

theorem TxUnit.ofBool_busy (u : TxUnit) : BitVec.ofBool u.busy = if u.state = .idle then 0 else 1 := by
  cases hs : u.state <;> simp [TxUnit.busy, hs]

theorem RxUnit.ofBool_busy (u : RxUnit) : BitVec.ofBool u.busy = if u.state = .idle then 0 else 1 := by
  cases hs : u.state <;> simp [RxUnit.busy, hs]

/-- Settles O42: the fields of the two words, and the codes of R110. -/
theorem statusWordFields : Obligations.StatusWordFields := by
  refine ⟨fun u => ?_, fun u => ?_⟩
  · obtain ⟨hbusy, hresult, hcmdErr, hzero⟩ := txStatus_fields u.cmdErr u.result.code u.busy
    refine ⟨hbusy.trans u.ofBool_busy, hresult.trans ?_, hcmdErr.trans (ofBool_eq_ite _), hzero⟩
    cases u.result <;> rfl
  · obtain ⟨hbusy, hresult, hcmdErr, hstate, hpvalid⟩ :=
      rxStatus_fields u.pvalid u.state.code u.cmdErr u.result.code u.busy
    refine ⟨hbusy.trans u.ofBool_busy, hresult.trans ?_, hcmdErr.trans (ofBool_eq_ite _), hstate.trans ?_,
      hpvalid.trans (ofBool_eq_ite _)⟩
    · cases u.result <;> rfl
    · cases u.state <;> rfl

/-! Reads. -/

variable {s : State}

/-- Settles O43: each number names its register, and its read is that register's value. -/
theorem scalarRegisterReads : Obligations.ScalarRegisterReads := fun _ =>
  ⟨rfl, rfl, rfl, rfl, rfl, rfl, rfl, rfl, rfl, rfl, rfl, rfl, rfl, rfl, rfl⟩

theorem hostTurn_read_of_some {r : RegNo} {reg : Reg} {v : HostWord} (hr : regOf r = reg)
    (h : readReg reg s = some v) : hostTurn (.read r) s = .next (s.setHostData v) := by
  change hostRead (regOf r) s = _
  rw [hr, hostRead, h]

theorem hostTurn_read_of_none {r : RegNo} {reg : Reg} (hr : regOf r = reg) (h : readReg reg s = none) :
    hostTurn (.read r) s = .refused .unspecifiedByte := by
  change hostRead (regOf r) s = _
  rw [hr, hostRead, h]

theorem readReg_txPay (i : Nat) (s : State) :
    readReg (.txPay i) s = (s.tx.pay.read? i).map (BitVec.setWidth 32) := rfl

theorem readReg_txFrm (i : Nat) (s : State) :
    readReg (.txFrm i) s =
      if i < s.tx.flen.toNat then (s.tx.frm.read? i).map (BitVec.setWidth 32) else none := rfl

theorem readReg_rxBuf (i : Nat) (s : State) :
    readReg (.rxBuf i) s =
      if i < s.rx.cnt.toNat then (s.rx.buf.read? i).map (BitVec.setWidth 32) else none := rfl

/-- Settles O44: a number of a window names a byte of its buffer, which R44 gives a value or calls unspecified. -/
theorem windowReads : Obligations.WindowReads := by
  intro s i
  refine ⟨fun r hi hr => ?pay, fun r hi hr => ?frm, fun r hi hr => ?buf⟩
  case pay =>
    have hreg : regOf r = .txPay i := regOf_txPay (Nat.lt_succ_of_le hi) hr
    refine ⟨fun b hb => hostTurn_read_of_some hreg ?_, fun hnone => hostTurn_read_of_none hreg ?_⟩
    · rw [readReg_txPay, hb]; rfl
    · rw [readReg_txPay, hnone]; rfl
  case frm =>
    have hreg : regOf r = .txFrm i := regOf_txFrm (Nat.lt_succ_of_le hi) hr
    refine ⟨fun b hin hb => hostTurn_read_of_some hreg ?_, fun hout => hostTurn_read_of_none hreg ?_⟩
    · rw [readReg_txFrm, if_pos hin, hb]; rfl
    · rw [readReg_txFrm, if_neg (Nat.not_lt.2 hout)]
  case buf =>
    have hreg : regOf r = .rxBuf i := regOf_rxBuf (Nat.lt_succ_of_le hi) hr
    refine ⟨fun b hin hb => hostTurn_read_of_some hreg ?_, fun hout => hostTurn_read_of_none hreg ?_⟩
    · rw [readReg_rxBuf, if_pos hin, hb]; rfl
    · rw [readReg_rxBuf, if_neg (Nat.not_lt.2 hout)]

/-- Settles O46: a read that returns a value only records it. -/
theorem hostReadsHaveNoSideEffect : Obligations.HostReadsHaveNoSideEffect := by
  intro s t r h
  obtain ⟨v, -, rfl⟩ := hostRead_cases h
  rfl

/-! Writes. -/

/-- The registers the host can only read (10_state.md R44). -/
def readOnlyReg : Reg → Bool
  | .txStatus | .txLrc | .txFlen | .txIdx | .rxStatus | .rxCnt | .rxLen | .rxPoff | .rxPlen | .rxLrc => true
  | .txFrm _ | .rxBuf _ => true
  | .cmd | .txPlen | .txSeed | .rxTidle | .rxTframe | .txPay _ | .reserved => false

theorem writeReg_of_readOnly {reg : Reg} (v : HostWord) (h : readOnlyReg reg = true) : writeReg reg v s = s := by
  cases reg
  case cmd | txPlen | txSeed | rxTidle | rxTframe | txPay | reserved => exact nomatch h
  all_goals rfl

theorem hostTurn_write_readOnly {r : RegNo} (v : HostWord) (h : readOnlyReg (regOf r) = true) :
    hostTurn (.write r v) s = .next s := by
  have notCmd : regOf r ≠ .cmd := fun hcmd => by simp [hcmd, readOnlyReg] at h
  rw [hostTurn_write_of_ne_cmd v s notCmd, writeReg_of_readOnly v h]

/-- The register numbers of the read-only registers (10_state.md R39). -/
theorem readOnlyReg_scalarReg : ∀ n < 16, n = 0x01 ∨ (0x04 ≤ n ∧ n ≤ 0x06) ∨ n = 0x08 ∨ 0x0B ≤ n →
    readOnlyReg (scalarReg n) = true := by
  decide

theorem readOnlyReg_regOf {r : RegNo}
    (h : r.toNat = 0x00001 ∨ (0x00004 ≤ r.toNat ∧ r.toNat ≤ 0x00006) ∨ r.toNat = 0x00008 ∨
      (0x0000B ≤ r.toNat ∧ r.toNat ≤ 0x0000F) ∨ (0x20000 ≤ r.toNat ∧ r.toNat ≤ 0x20000 + 65538) ∨
      (0x40000 ≤ r.toNat ∧ r.toNat ≤ 0x40000 + 65538)) : readOnlyReg (regOf r) = true := by
  by_cases hlow : r.toNat < 16
  · rw [regOf_scalar (by omega)]
    exact readOnlyReg_scalarReg r.toNat hlow (by omega)
  · have hfrm : txFrmBase = 0x20000 ∧ Config.txFrmSize = 65539 := by decide
    have hbuf : rxBufBase = 0x40000 ∧ Config.rxBufSize = 65539 := by decide
    by_cases hwindow : r.toNat < 0x40000
    · rw [regOf_txFrm (i := r.toNat - txFrmBase) (by omega) (by omega)]
      rfl
    · rw [regOf_rxBuf (i := r.toNat - rxBufBase) (by omega) (by omega)]
      rfl

theorem hostTurn_txOperand_of_idle {r : RegNo} {reg : Reg} {v : HostWord} {write : TxUnit → TxUnit}
    (hr : regOf r = reg) (hne : reg ≠ .cmd) (idle : s.tx.state = .idle)
    (h : writeReg reg v s = writeTxOperand write s) :
    hostTurn (.write r v) s = .next (s.setTx (write s.tx)) := by
  subst hr
  rw [hostTurn_write_of_ne_cmd v s hne, h, writeTxOperand_of_idle write idle]

/-- Settles O47: the timeout registers at any time, the operands of an idle TX unit, and the read-only registers. -/
theorem hostWrites : Obligations.HostWrites := by
  intro s v
  refine ⟨rfl, rfl, fun idle => ⟨?plen, ?seed, fun r i hi hr => ?pay⟩, fun r hr =>
    hostTurn_write_readOnly v (readOnlyReg_regOf hr)⟩
  case plen =>
    exact hostTurn_txOperand_of_idle (write := fun u => { u with plen := v.setWidth 16 }) (reg := .txPlen) rfl nofun
      idle rfl
  case seed =>
    exact hostTurn_txOperand_of_idle (write := fun u => { u with seed := v.setWidth 8 }) (reg := .txSeed) rfl nofun
      idle rfl
  case pay =>
    exact hostTurn_txOperand_of_idle (write := fun u => { u with pay := u.pay.write i (v.setWidth 8) })
      (regOf_txPay (Nat.lt_succ_of_le hi) hr) nofun idle rfl

end Sys2Proof.Machine
end
section
/-! What an RX step of the invariant's states can come to: one result per READ (60_exceptions.md R251), the bytes stored
so far (10_state.md R25), and an end within a bound (42_frame_reader.md R184). -/

namespace Sys2Proof.Machine

variable {s t : State} {epoch : Nat} {a : SrcAnswer} {u u' : RxUnit}

@[simp] theorem validate_lrc (u : RxUnit) : (validate u).lrc = u.lrc := by
  obtain ⟨-, -, h⟩ | ⟨-, -, h⟩ | ⟨-, h⟩ := validate_cases u <;> simp only [h, payloadView]

theorem validate_result (u : RxUnit) : (validate u).result = .ok ∨ (validate u).result = .data := by
  obtain ⟨-, -, h⟩ | ⟨-, -, h⟩ | ⟨-, h⟩ := validate_cases u <;> rw [h]
  · exact .inl rfl
  · exact .inl rfl
  · exact .inr rfl

/-! One result per READ. -/

/-- What a step of a busy unit can come to. -/
inductive StepOutcome (u u' : RxUnit) : Prop
  | runsOn (busy : u'.state ≠ .idle) (result : u'.result = .none) (hunt : u'.state = .hunt → u.state = .hunt)
  | timeout (hunt : u.state = .hunt) (idle : u'.state = .idle) (result : u'.result = .timeout) (expired : u.tmr = 0)
      (cnt : u'.cnt = u.cnt)
  | noStart (hunt : u.state = .hunt) (idle : u'.state = .idle) (result : u'.result = .start)
  | short (framing : u.Framing) (idle : u'.state = .idle) (result : u'.result = .length) (expired : u.tmr = 0)
      (cnt : u'.cnt = u.cnt)
  | validated (framing : u.Framing) (idle : u'.state = .idle) (result : u'.result = .ok ∨ u'.result = .data)
      (cnt : u'.cnt.toNat = u'.len.toNat + 4) (need : u.need = 1)

/-- A whole frame is validated with its last needed byte. -/
theorem StepOutcome.of_wholeFrame {w : RxUnit} (framing : u.Framing) (h : w.WholeFrame) (need : u.need.toNat = 1) :
    StepOutcome u (validate w) :=
  .validated framing (validate_state w) (validate_result w) (by rw [validate_cnt, validate_len, h.cnt])
    (BitVec.eq_of_toNat_eq need)

theorem RxAnswer.outcome (m : RxAnswer epoch s.rx a u) (h : s.Inv) : StepOutcome s.rx u := by
  obtain ⟨h49, hok, -, -⟩ := (State.inv_iff s).1 h
  have running (busy : s.rx.state ≠ .idle) : s.rx.result = .none := (h49.busy busy).1
  cases m with
  | timeout hunt expired => exact .timeout hunt rfl rfl expired rfl
  | short framing expired => exact .short framing rfl rfl expired rfl
  | count busy => exact .runsOn busy (running busy) id
  | start hunt => exact .runsOn nofun (running (by simp [hunt])) nofun
  | noStart b hunt => exact .noStart hunt rfl rfl
  | noise b hunt =>
    have busy : s.rx.state ≠ .idle := by simp [hunt]
    exact .runsOn busy (running busy) id
  | stored b framing => exact .runsOn framing.busy (running framing.busy) id
  | header b hdr => exact .runsOn nofun (running (by simp [hdr])) nofun
  | headerOnly b hdr last declares =>
    exact .of_wholeFrame (.inl hdr) (hok.wholeFrame_of_header h49 hdr last declares) (h49.need_eq_one (.inl hdr) last)
  | frame b body last =>
    exact .of_wholeFrame (.inr body) (hok.wholeFrame_of_body h49 body last) (h49.need_eq_one (.inr body) last)

/-- Settles O23: the five outcomes, each with its phase and its result. -/
theorem oneResultPerRead : Obligations.OneResultPerRead := by
  intro s t h busy hp
  obtain ⟨idle, -⟩ | ⟨-, answer, -⟩ := rxTurn_answer_cases hp
  · exact absurd idle busy
  · cases answer.outcome h with
    | runsOn busy result hunt =>
      exact ⟨by simp [busy, result], by simp [result], by simp [result], by simp [result], by simp [result], hunt⟩
    | timeout hunt idle result expired cnt => simp [hunt, idle, result, expired, cnt]
    | noStart hunt idle result => simp [hunt, idle, result]
    | short framing idle result expired cnt =>
      have phase : s.rx.state = .hdr ∨ s.rx.state = .body := framing
      simp [phase, idle, result, expired, cnt]
    | validated framing idle result cnt need =>
      have phase : s.rx.state = .hdr ∨ s.rx.state = .body := framing
      obtain result | result := result <;> simp [phase, idle, result, cnt, need]

/-! The bytes stored so far. -/

/-- From `u` to `u'` bytes have been stored at the count and above, and no others. -/
structure RxUnit.Extends (u u' : RxUnit) : Prop where
  cnt : u.cnt.toNat ≤ u'.cnt.toNat
  below : ∀ i, i < u.cnt.toNat → u'.buf.read? i = u.buf.read? i
  above : ∀ i, u'.cnt.toNat ≤ i → u'.buf.read? i = u.buf.read? i

theorem RxUnit.Extends.of_eq (hcnt : u'.cnt = u.cnt) (hbuf : u'.buf = u.buf) : u.Extends u' :=
  ⟨by rw [hcnt], fun _ _ => by rw [hbuf], fun _ _ => by rw [hbuf]⟩

theorem RxUnit.Extends.trans {u'' : RxUnit} (h : u.Extends u') (h' : u'.Extends u'') : u.Extends u'' where
  cnt := h.cnt.trans h'.cnt
  below i hi := (h'.below i (hi.trans_le h.cnt)).trans (h.below i hi)
  above i hi := (h'.above i hi).trans (h.above i (h'.cnt.trans hi))

/-- A byte stored at the count, which goes up by one. -/
theorem RxUnit.Extends.of_write {b : Byte} (hcnt : u'.cnt.toNat = u.cnt.toNat + 1)
    (hbuf : u'.buf = u.buf.write u.cnt.toNat b) : u.Extends u' where
  cnt := by omega
  below i hi := by rw [hbuf, Memory.read?_write_ne _ _ (by omega)]
  above i hi := by rw [hbuf, Memory.read?_write_ne _ _ (by omega)]

theorem RxAnswer.extends (m : RxAnswer epoch s.rx a u) (h49 : RuleR49 s) : s.rx.Extends u := by
  have hunting {b : Byte} {u : RxUnit} (hunt : s.rx.state = .hunt) (hcnt : u.cnt = 1)
      (hbuf : u.buf = s.rx.buf.write 0 b) : s.rx.Extends u := by
    have h0 : s.rx.cnt.toNat = 0 := by simp [h49.hunt hunt]
    exact .of_write (b := b) (by rw [hcnt, h0]; rfl) (by rw [hbuf, h0])
  have storing {b : Byte} {u : RxUnit} (framing : s.rx.Framing) (hcnt : u.cnt = (storeByte b s.rx).cnt)
      (hbuf : u.buf = (storeByte b s.rx).buf) : s.rx.Extends u :=
    .of_write (by rw [hcnt]; exact storeByte_cnt b (h49.room framing)) hbuf
  cases m with
  | timeout => exact .of_eq rfl rfl
  | short => exact .of_eq rfl rfl
  | count => exact .of_eq rfl rfl
  | start hunt => exact hunting hunt rfl rfl
  | noStart b hunt => exact hunting hunt rfl rfl
  | noise => exact .of_eq rfl rfl
  | stored b framing => exact storing framing rfl rfl
  | header b hdr => exact storing (.inl hdr) rfl rfl
  | headerOnly b hdr => exact storing (.inl hdr) (validate_cnt _) (validate_buf _)
  | frame b body => exact storing (.inr body) (validate_cnt _) (validate_buf _)

theorem rxTurn_extends (h : s.Inv) (hr : rxTurn s = .next t) : s.rx.Extends t.rx := by
  obtain ⟨-, rfl⟩ | ⟨-, answer, -⟩ := rxTurn_answer_cases hr
  · exact .of_eq rfl rfl
  · exact answer.extends h.r49

/-- Settles O24: every answer leaves the stored bytes or adds one after them. -/
theorem storedBytesStay : Obligations.StoredBytesStay := by
  intro s t h _ hp
  have hext := rxTurn_extends h hp
  exact ⟨hext.cnt, hext.below⟩

/-! The bound on a frame in progress. -/

/-- The turns a frame in progress can still take: the bytes its phase needs and the ticks its timer has left, and for
the header those of the longest body too. -/
def RxUnit.turnsLeft (u : RxUnit) : Nat :=
  u.need.toNat + u.tmr.toNat +
    match u.state with
    | .hdr => 65535 + u.tframe.toNat
    | _ => 0

/-- An answer to a frame in progress ends the READ or uses up one of the turns left. -/
theorem RxAnswer.ends_or_turnsLeft_lt (m : RxAnswer epoch s.rx a u) (h49 : RuleR49 s) (framing : s.rx.Framing) :
    (u.state = .idle ∧ u.result ≠ .none) ∨ (u.Framing ∧ u.turnsLeft < s.rx.turnsLeft) := by
  have notHunt (hunt : s.rx.state = .hunt) : False := RxUnit.not_framing_of_hunt hunt framing
  have validated (w : RxUnit) : (validate w).state = .idle ∧ (validate w).result ≠ .none := by
    refine ⟨validate_state w, ?_⟩
    obtain h | h := validate_result w <;> simp [h]
  obtain ⟨-, -, hpos, -⟩ := h49.of_framing framing
  cases m with
  | timeout hunt => exact (notHunt hunt).elim
  | short => exact .inl ⟨rfl, nofun⟩
  | count _ running =>
    obtain ⟨hzero, -⟩ | ⟨-, -, htmr⟩ := countTick_cases .length s.rx
    · exact absurd hzero running
    · refine .inr ⟨framing, ?_⟩
      simp only [RxUnit.turnsLeft]
      omega
  | start hunt => exact (notHunt hunt).elim
  | noStart b hunt => exact (notHunt hunt).elim
  | noise b hunt => exact (notHunt hunt).elim
  | stored b =>
    have hneed := storeByte_need b hpos
    refine .inr ⟨framing, ?_⟩
    simp only [RxUnit.turnsLeft, hneed]
    dsimp only [storeByte]
    omega
  | header b hdr =>
    refine .inr ⟨.inr rfl, ?_⟩
    have hbody := (BitVec.ofNat 16 (declaredLength epoch (storeByte b s.rx))).isLt
    simp only [RxUnit.turnsLeft, hdr]
    omega
  | headerOnly b => exact .inl (validated _)
  | frame b => exact .inl (validated _)

theorem frameInProgress_ends {n : Nat} (h : s.Inv) (framing : s.rx.Framing) (hn : s.rx.turnsLeft ≤ n) :
    ∃ (k : Nat) (t : State), k ≤ n ∧ rxTurns k s = .next t ∧ t.rx.state = .idle ∧ t.rx.result ≠ .none := by
  induction n generalizing s with
  | zero =>
    obtain ⟨-, -, hpos, -⟩ := h.r49.of_framing framing
    unfold RxUnit.turnsLeft at hn
    omega
  | succ n ih =>
    obtain ⟨m, turn⟩ := h.rxTurn_completes
    obtain ⟨idle, -⟩ | ⟨-, answer, -⟩ := rxTurn_answer_cases turn
    · exact absurd idle framing.busy
    · obtain hended | ⟨hframing, hlt⟩ := answer.ends_or_turnsLeft_lt h.r49 framing
      · exact ⟨1, m, by omega, rxTurns_succ 0 turn, hended⟩
      · obtain ⟨k, t, hk, run, hended⟩ := ih (perform_keeps_inv (turn := .rx) h turn) hframing (by omega)
        exact ⟨k + 1, t, by omega, (rxTurns_succ k turn).trans run, hended⟩

/-- Settles O30: the turns left are within the bound. -/
theorem frameInProgressEnds : Obligations.FrameInProgressEnds := by
  intro s h framing
  have htmr := h.ranges.frameTimer framing
  have hneed := s.rx.need.isLt
  refine frameInProgress_ends h framing ?_
  unfold RxUnit.turnsLeft
  obtain hdr | body := framing
  · obtain ⟨h1, -, hphase, -⟩ := h.r49.hdr hdr
    simp only [hdr]
    omega
  · simp only [body]
    omega

end Sys2Proof.Machine
end

section
/-! A READ in HUNT and the timeouts: noise holds it (42_frame_reader.md R174), a quiet line ends it (R175). -/

namespace Sys2Proof.Machine

variable {s : State} {rest : List SrcAnswer}

/-- Settles O27: noise moves the timer of the reader and nothing else. -/
theorem noiseHoldsTheReader : Obligations.NoiseHoldsTheReader := by
  intro s noise rest hunt lax hopen htmr hnoise hin
  obtain ⟨v, hrun⟩ := rxTurns_noise noise rest hunt lax hopen (run := 0) (by rw [htmr, Nat.add_zero]) hnoise hin
  exact ⟨_, hrun, rfl, rfl⟩

/-- Ticks that the timer has left count it down. -/
theorem rxTurns_ticks (n : Nat) (hunt : s.rx.state = .hunt) (hopen : s.sourceOpen = true) (hn : n ≤ s.rx.tmr.toNat)
    (hin : s.incoming = List.replicate n SrcAnswer.tick ++ rest) :
    ∃ v : Ticks, v.toNat = s.rx.tmr.toNat - n ∧
      rxTurns n s = .next ((s.setIncoming rest).setRx { s.rx with tmr := v }) := by
  induction n generalizing s with
  | zero =>
    obtain rfl : s.incoming = rest := hin
    exact ⟨s.rx.tmr, rfl, rfl⟩
  | succ n ih =>
    obtain ⟨hzero, -⟩ | ⟨running, -, htmr⟩ := countTick_cases .timeout s.rx
    · simp [hzero] at hn
    · have turn := rxTurn_tick_counts (by simp [hunt]) hopen hin (rxOnTick_hunt hunt) rfl running
      obtain ⟨v, hv, hrun⟩ := ih (s := (s.setIncoming (List.replicate n SrcAnswer.tick ++ rest)).setRx
        { s.rx with tmr := s.rx.tmr - 1 }) hunt hopen (by simp only [State.setRx_rx]; omega) rfl
      exact ⟨v, by simp only [State.setRx_rx] at hv; omega, (rxTurns_succ n turn).trans hrun⟩

/-- Settles O28: the ticks up to the timeout count the timer down to 0, and the next one ends the READ. -/
theorem timeoutAfterQuietLine : Obligations.TimeoutAfterQuietLine := by
  intro s strict rest idle hopen hin
  have ticks (j : Nat) (hj : j ≤ s.rx.regTidle.toNat) :=
    rxTurns_ticks (s := s.setRx (readIssue false strict s.rx.accept)) j rfl hopen hj
      (rest := List.replicate (s.rx.regTidle.toNat + 1 - j) SrcAnswer.tick ++ rest)
      (by rw [← List.append_assoc, List.replicate_append_replicate, Nat.add_sub_cancel' (by omega)]; exact hin)
  obtain ⟨v, hv, hrun⟩ := ticks s.rx.regTidle.toNat le_rfl
  have expired : v = 0 := BitVec.eq_of_toNat_eq (hv.trans (Nat.sub_self _))
  rw [Nat.add_sub_cancel_left] at hrun
  have last := rxTurn_tick_expires (s := ((s.setRx (readIssue false strict s.rx.accept)).setIncoming
    (SrcAnswer.tick :: rest)).setRx { readIssue false strict s.rx.accept with tmr := v })
    nofun hopen rfl (rxOnTick_hunt rfl) rfl expired
  refine ⟨_, _, exec_read_issued strict idle hopen, (rxTurns_trans hrun).trans (rxTurns_succ 0 last), rfl, rfl, rfl,
    rfl, rfl, fun j hj => ?_⟩
  obtain ⟨v, -, hrun⟩ := ticks j hj
  exact ⟨_, hrun, rfl, rfl⟩

end Sys2Proof.Machine
end

section
/-! Registers an RX step does not look at: the host's timeout registers at any time (20_memory.md R82), and the strict
mode once the reader has left HUNT (42_frame_reader.md R192). -/

namespace Sys2Proof.Machine

variable {s t : State} {epoch : Nat} {a : SrcAnswer} {u u' : RxUnit}

/-- The same registers with other values of these three. -/
def RxUnit.withInert (u : RxUnit) (strict : Bool) (regTidle regTframe : Ticks) : RxUnit :=
  { u with strict := strict, regTidle := regTidle, regTframe := regTframe }

variable (strict : Bool) (regTidle regTframe : Ticks)

theorem validate_withInert (u : RxUnit) :
    validate (u.withInert strict regTidle regTframe) = (validate u).withInert strict regTidle regTframe := by
  by_cases hlrc : u.lrc = lrcSeed
  · cases hrecv : u.recv with
    | false =>
      rw [validate_read_ok hlrc hrecv]
      exact validate_read_ok (u := u.withInert strict regTidle regTframe) hlrc hrecv
    | true =>
      rw [validate_recv_ok hlrc hrecv]
      exact validate_recv_ok (u := u.withInert strict regTidle regTframe) hlrc hrecv
  · rw [validate_data hlrc]
    exact validate_data (u := u.withInert strict regTidle regTframe) hlrc

/-- The rule that matches is the same, and so is what it does. -/
theorem RxAnswer.withInert (m : RxAnswer epoch u a u') (hmode : u.state = .hunt → strict = u.strict) :
    RxAnswer epoch (u.withInert strict regTidle regTframe) a (u'.withInert strict regTidle regTframe) := by
  cases m with
  | timeout hunt expired => exact .timeout (u := u.withInert _ _ _) hunt expired
  | short framing expired => exact .short (u := u.withInert _ _ _) framing expired
  | count busy running => exact .count (u := u.withInert _ _ _) busy running
  | start hunt => exact .start (u := u.withInert _ _ _) hunt
  | noStart b hunt other hs => exact .noStart (u := u.withInert _ _ _) b hunt other ((hmode hunt).trans hs)
  | noise b hunt other lax => exact .noise (u := u.withInert _ _ _) b hunt other ((hmode hunt).trans lax)
  | stored b framing more => exact .stored (u := u.withInert _ _ _) b framing more
  | header b hdr last declares => exact .header (u := u.withInert _ _ _) b hdr last declares
  | headerOnly b hdr last declares =>
    rw [← validate_withInert]
    exact .headerOnly (u := u.withInert _ _ _) b hdr last declares
  | frame b body last =>
    rw [← validate_withInert]
    exact .frame (u := u.withInert _ _ _) b body last

theorem rxTurn_withInert (h : rxTurn s = .next t) (hmode : s.rx.state = .hunt → strict = s.rx.strict) :
    rxTurn (s.setRx (s.rx.withInert strict regTidle regTframe)) =
      .next (t.setRx (t.rx.withInert strict regTidle regTframe)) := by
  obtain ⟨idle, rfl⟩ | ⟨busy, hopen, rfl, room⟩ := rxTurn_cases h
  · exact rxTurn_of_idle idle
  · have turn := rxTurn_of_busy (s := s.setRx (s.rx.withInert strict regTidle regTframe)) busy hopen
      (by rw [srcRead_setRx]; exact room)
    have answer := (rxOn_answer s.epoch (srcRead s).1 busy).withInert strict regTidle regTframe hmode
    rw [turn, srcRead_setRx]
    exact congrArg (fun u => Host.Outcome.next ((srcRead s).2.setRx u)) answer.eq_rxOn.symm

/-- Settles O48: the step does the same on the other values, and leaves them. -/
theorem latchedOperandsStand : Obligations.LatchedOperandsStand := by
  intro s t v w _ hp
  have turn := rxTurn_withInert s.rx.strict v w hp fun _ => rfl
  have hkept : t.rx.withInert s.rx.strict v w = { t.rx with regTidle := v, regTframe := w } := by
    rw [← (rxTurn_sameOperands hp).strict]
    rfl
  rw [hkept] at turn
  exact turn

/-- A reader never comes back to HUNT. -/
theorem RxAnswer.ne_hunt (m : RxAnswer epoch u a u') (h : u.state ≠ .hunt) : u'.state ≠ .hunt := by
  cases m with
  | timeout hunt => exact absurd hunt h
  | start hunt => exact absurd hunt h
  | noStart b hunt => exact absurd hunt h
  | noise b hunt => exact absurd hunt h
  | count => exact h
  | stored => exact h
  | headerOnly => simp
  | frame => simp
  | _ => nofun

theorem rxTurn_ne_hunt (hr : rxTurn s = .next t) (h : s.rx.state ≠ .hunt) : t.rx.state ≠ .hunt := by
  obtain ⟨-, rfl⟩ | ⟨-, answer, -⟩ := rxTurn_answer_cases hr
  · exact h
  · exact answer.ne_hunt h

theorem rxTurns_withInert {n : Nat} (h : rxTurns n s = .next t) (notHunt : s.rx.state ≠ .hunt) :
    rxTurns n (s.setRx (s.rx.withInert strict regTidle regTframe)) =
      .next (t.setRx (t.rx.withInert strict regTidle regTframe)) := by
  induction n generalizing s with
  | zero =>
    cases h
    rfl
  | succ n ih =>
    obtain ⟨m, turn, run⟩ := rxTurns_succ_eq_next h
    have turn' := rxTurn_withInert strict regTidle regTframe turn fun hunt => absurd hunt notHunt
    exact (rxTurns_succ n turn').trans (ih run (rxTurn_ne_hunt turn notHunt))

/-- Settles O29: both READs start the frame with the first answer, and from there the mode is not looked at. -/
theorem strictStartOnCleanBoundary : Obligations.StrictStartOnCleanBoundary := by
  intro s n rest idle hopen hin
  refine ⟨_, _, exec_read_issued true idle hopen, exec_read_issued false idle hopen, fun t1 run => ?_⟩
  have start (strict : Bool) := rxTurn_startByte (s := s.setRx (readIssue false strict s.rx.accept)) rfl hopen hin
  rw [rxTurns_succ n (start true)] at run
  have kept := rxTurns_sameOperands run
  have hregTidle : t1.rx.regTidle = s.rx.regTidle := kept.regTidle
  have hregTframe : t1.rx.regTframe = s.rx.regTframe := kept.regTframe
  have run' := rxTurns_withInert false s.rx.regTidle s.rx.regTframe run nofun
  have hlax : t1.rx.withInert false s.rx.regTidle s.rx.regTframe = { t1.rx with strict := false } := by
    rw [← hregTidle, ← hregTframe]
    rfl
  rw [hlax] at run'
  rw [rxTurns_succ n (start false)]
  exact run'

end Sys2Proof.Machine
end
section
/-! The RX unit's turns and the rest of the machine: the TX unit, the outgoing stream and the agenda are other agents'
business (10_state.md R20, 20_memory.md R79), so a burst on the wire is as many turns on the agenda (log 8). -/

namespace Sys2Proof.Machine

variable {s t : State}

/-- The same state with another TX unit, outgoing stream and agenda. -/
def State.withOthers (s : State) (tx : TxUnit) (outgoing : List Byte) (agenda : List Turn) : State :=
  { s with tx := tx, outgoing := outgoing, agenda := agenda }

/-- The same result with its state changed. -/
def onNext (f : State → State) (r : Result) : Result :=
  match r with
  | .next t => .next (f t)
  | .fault r => .fault r
  | .refused r => .refused r

section

variable (tx : TxUnit) (outgoing : List Byte) (agenda : List Turn)

theorem srcRead_withOthers (s : State) :
    srcRead (s.withOthers tx outgoing agenda) = ((srcRead s).1, (srcRead s).2.withOthers tx outgoing agenda) := by
  cases h : s.incoming with
  | nil => rw [srcRead_nil h, srcRead_nil (s := s.withOthers tx outgoing agenda) h]; rfl
  | cons a rest => rw [srcRead_cons h, srcRead_cons (s := s.withOthers tx outgoing agenda) h]; rfl

theorem rxApply_withOthers (a : SrcAnswer) (s : State) :
    rxApply a (s.withOthers tx outgoing agenda) = onNext (·.withOthers tx outgoing agenda) (rxApply a s) := by
  cases a with
  | tick => rfl
  | byte b =>
    by_cases h : s.rx.state ≠ .hunt ∧ Config.rxBufSize ≤ s.rx.cnt.toNat
    · have hl : rxApply (.byte b) (s.withOthers tx outgoing agenda) = .fault .noSuchByte := if_pos h
      have hr : rxApply (.byte b) s = .fault .noSuchByte := if_pos h
      rw [hl, hr]
      rfl
    · have hl : rxApply (.byte b) (s.withOthers tx outgoing agenda) =
          .next ((s.withOthers tx outgoing agenda).setRx (rxOnByte s.epoch b s.rx)) := if_neg h
      have hr : rxApply (.byte b) s = .next (s.setRx (rxOnByte s.epoch b s.rx)) := if_neg h
      rw [hl, hr]
      rfl

/-- An RX turn neither sees nor touches what belongs to the others. -/
theorem rxTurn_withOthers (s : State) :
    rxTurn (s.withOthers tx outgoing agenda) = onNext (·.withOthers tx outgoing agenda) (rxTurn s) := by
  by_cases idle : s.rx.state = .idle
  · rw [rxTurn_of_idle idle]
    exact rxTurn_of_idle (s := s.withOthers tx outgoing agenda) idle
  · cases hopen : s.sourceOpen with
    | false =>
      rw [rxTurn_of_closed idle hopen]
      exact rxTurn_of_closed (s := s.withOthers tx outgoing agenda) idle hopen
    | true =>
      have go {m : State} (busy : m.rx.state ≠ .idle) (source : m.sourceOpen = true) :
          rxTurn m = rxApply (srcRead m).1 (srcRead m).2 := by
        rw [rxTurn, if_neg busy, if_neg (by simp [source])]
      rw [go idle hopen, go (m := s.withOthers tx outgoing agenda) idle hopen, srcRead_withOthers]
      exact rxApply_withOthers tx outgoing agenda _ _

/-- Turns of the RX unit listed on the agenda are taken one step each. -/
theorem run_rx_turns (n : Nat) (s : State) :
    Host.Core.run core n (s.withOthers tx outgoing (List.replicate n Turn.rx ++ agenda)) =
      onNext (·.withOthers tx outgoing agenda) (rxTurns n s) := by
  induction n generalizing s with
  | zero => rfl
  | succ n ih =>
    have hstep : core.step (s.withOthers tx outgoing (List.replicate (n + 1) Turn.rx ++ agenda)) =
        onNext (·.withOthers tx outgoing (List.replicate n Turn.rx ++ agenda)) (rxTurn s) :=
      (step_of_agenda (s := s.withOthers tx outgoing (List.replicate (n + 1) Turn.rx ++ agenda)) (turn := .rx)
        rfl).trans (rxTurn_withOthers tx outgoing _ s)
    simp only [Host.Core.run, rxTurns]
    rw [hstep]
    cases rxTurn s with
    | next m => exact ih m
    | fault r => rfl
    | refused r => rfl

end

/-- A burst is that many RX steps of the machine. -/
theorem run_rx_turns_eq_wireBurst (s : State) (bytes : List Byte) (agenda : List Turn) :
    Host.Core.run core bytes.length
      ((present bytes s).setAgenda (List.replicate bytes.length Turn.rx ++ agenda)) =
      onNext (·.setAgenda agenda) (wireBurst bytes s) := by
  refine (run_rx_turns s.tx s.outgoing agenda bytes.length (present bytes s)).trans ?_
  change onNext _ (wireBurst bytes s) = _
  cases h : wireBurst bytes s with
  | next t =>
    have htx := wireBurst_tx h
    have hout := (wireBurst_surroundings h).outgoing
    rw [← htx, ← hout]
    rfl
  | fault r => rfl
  | refused r => rfl

theorem txTurn_incoming {ready : Bool} (h : txTurn ready s = .next t) : t.incoming = s.incoming := by
  obtain ⟨-, rfl⟩ | ⟨-, -, -, -, rfl⟩ := txTurn_cases h <;> rfl

/-- Settles O54: the RX turn leaves the TX side alone and does not look at it, and so the other way round. -/
theorem rxAndTxStepsCommute : Obligations.RxAndTxStepsCommute := by
  intro s s1 s2 ready h1 h2
  refine ⟨rxTurn_tx h1, (rxTurn_surroundings h1).outgoing, txTurn_rx h2, txTurn_incoming h2, ?_⟩
  obtain ⟨hno, rfl⟩ | ⟨emit, rfl, hopen, room, rfl⟩ := txTurn_cases h2
  · exact ⟨s1, txTurn_of_idle_or_not_ready (by rw [rxTurn_tx h1]; exact hno), h1⟩
  · have hrx := rxTurn_withOthers (txAdvance s.tx) (s.outgoing ++ [s.tx.emitByte s.epoch]) s.agenda s
    have h1' : rxTurn s = .next s1 := h1
    rw [h1'] at hrx
    refine ⟨_, ?_, hrx⟩
    obtain ⟨l, k, hs1, -⟩ := rxTurn_frame h1
    rw [hs1]
    exact txTurn_of_emit (s := ((s.setIncoming l).setDraws k).setRx s1.rx) emit hopen room

end Sys2Proof.Machine
end

section
/-! Bytes on the wire before an idle reader, a reader in HUNT and one inside a frame (42_frame_reader.md R172 to R189,
30_encoding.md R106). -/

namespace Sys2Proof.Machine

variable {s t : State} {epoch : Nat} {a : SrcAnswer} {u u' : RxUnit}

/-! Bytes as answers with no tick between. -/

theorem bytesOf_map_byte (bytes : List Byte) : bytesOf (bytes.map SrcAnswer.byte) = bytes := by
  induction bytes with
  | nil => rfl
  | cons b bytes ih => exact congrArg (b :: ·) ih

theorem ticksOf_map_byte (bytes : List Byte) : ticksOf (bytes.map SrcAnswer.byte) = 0 := by
  induction bytes with
  | nil => rfl
  | cons b bytes ih => exact ih

theorem delivers_map_byte (bytes : List Byte) (limit : Nat) : Delivers (bytes.map SrcAnswer.byte) bytes limit := by
  refine ⟨bytesOf_map_byte bytes, by rw [ticksOf_map_byte]; exact Nat.zero_le _, ?_⟩
  obtain rfl | ⟨front, b, rfl⟩ := bytes.eq_nil_or_concat'
  · exact .inl rfl
  · exact .inr ⟨b, by simp⟩

theorem deliversFrame_map_byte {frame : List Byte} (hstart : frame[0]? = some stx) (limit : Nat) :
    DeliversFrame (frame.map SrcAnswer.byte) frame limit := by
  cases frame with
  | nil => cases hstart
  | cons b tail =>
    cases hstart
    refine ⟨(tail.take 3).map .byte, (tail.drop 3).map .byte, ?_, delivers_map_byte _ _, delivers_map_byte _ _⟩
    rw [← List.map_append, List.take_append_drop]
    rfl

/-! Listed answers. -/

/-- While the listed answers last, turns of the RX unit draw no free ones. -/
theorem rxTurns_listed {n : Nat} (hn : n ≤ s.incoming.length) (h : rxTurns n s = .next t) :
    t = (s.setIncoming t.incoming).setRx t.rx := by
  induction n generalizing s with
  | zero =>
    cases h
    rfl
  | succ n ih =>
    by_cases idle : s.rx.state = .idle
    · rw [rxTurns_of_idle idle] at h
      cases h
      rfl
    · obtain ⟨m, turn, run⟩ := rxTurns_succ_eq_next h
      obtain ⟨a, rest, hin⟩ := List.exists_cons_of_length_pos (Nat.lt_of_lt_of_le n.succ_pos hn)
      obtain ⟨hidle, -⟩ | ⟨-, -, rfl, -⟩ := rxTurn_cases turn
      · exact absurd hidle idle
      · rw [srcRead_cons hin] at run
        rw [hin, List.length_cons] at hn
        exact ih (s := (s.setIncoming rest).setRx (rxOn s.epoch a s.rx)) (Nat.le_of_succ_le_succ hn) run

theorem State.Inv.after_rxTurns {n : Nat} (h : s.Inv) (hr : rxTurns n s = .next t) : t.Inv :=
  rxTurns_induct (p := State.Inv) (fun _ _ hm hturn => perform_keeps_inv (turn := .rx) hm hturn) h hr

theorem rxTurns_extends {n : Nat} (h : s.Inv) (hr : rxTurns n s = .next t) : s.rx.Extends t.rx :=
  (rxTurns_induct (p := fun m => m.Inv ∧ s.rx.Extends m.rx)
    (fun _ _ ⟨hm, hext⟩ hturn =>
      ⟨perform_keeps_inv (turn := .rx) hm hturn, hext.trans (rxTurn_extends hm hturn)⟩)
    ⟨h, .of_eq rfl rfl⟩ hr).2

/-! What an ended READ or RECV leaves in `rx_lrc` and in the payload view. -/

/-- From its issue to after its end a READ has the XOR of its bytes in `rx_lrc`, and a payload view just if it is a RECV
that has ended `OK` (42_frame_reader.md R181, R186). -/
structure RxUnit.ReadView (u : RxUnit) : Prop where
  lrcOk : u.LrcOk
  pvalid : u.pvalid = (u.recv && decide (u.result = .ok))

theorem RxUnit.ReadView.of_busy (h : s.Inv) (busy : s.rx.state ≠ .idle) : s.rx.ReadView := by
  obtain ⟨h49, hok, -, -⟩ := (State.inv_iff s).1 h
  exact ⟨h49.lrcOk busy, by simp [hok.pvalid_of_busy busy, (h49.busy busy).1]⟩

theorem RxUnit.WholeFrame.validate_readView {u : RxUnit} (h : u.WholeFrame) : (validate u).ReadView := by
  have hp := h.pvalid
  obtain ⟨-, hrecv, hv⟩ | ⟨-, hrecv, hv⟩ | ⟨-, hv⟩ := validate_cases u <;> rw [hv]
  · exact ⟨h.lrcOk, by simp [hrecv, hp]⟩
  · exact ⟨h.lrcOk, by simp [payloadView, hrecv]⟩
  · exact ⟨h.lrcOk, by simp [hp]⟩

/-- An answer to a busy unit keeps the view, or ends the READ and leaves it. -/
theorem RxAnswer.readView (m : RxAnswer epoch s.rx a u) (h : s.Inv) (busy : s.rx.state ≠ .idle) : u.ReadView := by
  obtain ⟨h49, hok, -, -⟩ := (State.inv_iff s).1 h
  have hlrc := h49.lrcOk busy
  have hp := hok.pvalid_of_busy busy
  have hres := (h49.busy busy).1
  cases m with
  | timeout => exact ⟨hlrc, by simp [hp]⟩
  | short => exact ⟨hlrc, by simp [hp]⟩
  | count => exact ⟨hlrc, by simp [hp, hres]⟩
  | start => exact ⟨huntStart_lrcOk _, by simp [huntStart, hp, hres]⟩
  | noStart b =>
    have hacc := huntStrict_accumulated b s.rx
    exact ⟨⟨[b], hacc, by simp [huntStrict, fold]⟩, by simp [huntStrict, hp]⟩
  | noise => exact ⟨hlrc, by simp [huntNoise, hp, hres]⟩
  | stored b framing => exact ⟨storeByte_lrcOk b hlrc (h49.room framing), by simp [storeByte, hp, hres]⟩
  | header b hdr => exact ⟨storeByte_lrcOk b hlrc (h49.room (.inl hdr)), by simp [storeByte, hp, hres]⟩
  | headerOnly b hdr last declares => exact (hok.wholeFrame_of_header h49 hdr last declares).validate_readView
  | frame b body last => exact (hok.wholeFrame_of_body h49 body last).validate_readView

theorem rxTurns_readView {n : Nat} (h : s.Inv) (hview : s.rx.ReadView) (hr : rxTurns n s = .next t) :
    t.rx.ReadView := by
  refine (rxTurns_induct (p := fun m => m.Inv ∧ m.rx.ReadView) (fun m m' ⟨hm, hmview⟩ hturn => ?_) ⟨h, hview⟩ hr).2
  refine ⟨perform_keeps_inv (turn := .rx) hm hturn, ?_⟩
  obtain ⟨-, rfl⟩ | ⟨busy, answer, -⟩ := rxTurn_answer_cases hturn
  · exact hmview
  · exact answer.readView hm busy

/-! FRAME. -/

/-- An accepted frame on the wire before a reader in HUNT is taken whole, with nothing else of the source. -/
theorem wireBurst_of_acceptedFrame {frame : List Byte} (h : s.Inv) (hunt : s.rx.state = .hunt)
    (hframe : AcceptedFrame frame) :
    ∃ t : State, wireBurst frame s = .next t ∧ t.incoming = s.incoming ∧ t.rx.Validated frame := by
  have busy : s.rx.state ≠ .idle := by simp [hunt]
  obtain ⟨-, hstart, -, -⟩ := (acceptedFrame_iff frame).1 hframe
  have hrun := rxTurns_of_deliversFrame (s := present frame s) hunt (h.r49.busy busy).1 (h.source (.inl busy)) hframe
    (deliversFrame_map_byte hstart _) rfl
  rwa [List.length_map] at hrun

/-- Settles O32: the burst is taken whole; the invariant, the view of the READ and what no turn touches say the
rest. -/
theorem frameIsReceived : Obligations.FrameIsReceived := by
  intro s P h hunt hP
  have busy : s.rx.state ≠ .idle := by simp [hunt]
  have hframe := acceptedFrame_buildFrame hP
  obtain ⟨-, -, -, hfold⟩ := (acceptedFrame_iff _).1 hframe
  obtain ⟨t, hrun, hin, hvalid⟩ := wireBurst_of_acceptedFrame h hunt hframe
  have hok : t.rx.result = .ok := hvalid.result.trans (if_pos hfold)
  have htInv : t.Inv := (h.present _).after_rxTurns hrun
  obtain ⟨hlrcOk, hpvalid⟩ := rxTurns_readView (h.present _) (.of_busy (h.present _) busy) hrun
  have kept := rxTurns_sameOperands hrun
  have hcnt : t.rx.cnt.toNat = P.length + 5 := by
    rw [← RxUnit.length_of_accumulated hvalid.accumulated, buildFrame_length]
  have hview : t.rx.pvalid = s.rx.recv := by
    rw [hpvalid, hok, kept.recv]
    exact Bool.and_true _
  refine ⟨t, hrun, hvalid.idle, hok, hvalid.accumulated, hcnt, ?len, ?lrc, hview, fun hrecv => ?view, ?above,
    kept.cmdErr, kept.regTidle, kept.regTframe, hin, ?rest⟩
  case len =>
    obtain ⟨hlen, -, -⟩ := htInv.r49.ok hok
    omega
  case lrc =>
    obtain ⟨bytes, hbytes, hlrc⟩ := hlrcOk
    obtain rfl : buildFrame P = bytes := Option.some.inj (hvalid.accumulated.symm.trans hbytes)
    exact hlrc.trans hfold
  case view =>
    obtain ⟨-, hpoff, hplen⟩ := htInv.ranges.view (hview.trans hrecv)
    exact ⟨hpoff, by omega⟩
  case above =>
    have hext := rxTurns_extends (h.present _) hrun
    exact fun i hi => hext.above i (by omega)
  case rest =>
    have hlisted : t = ((present (buildFrame P) s).setIncoming t.incoming).setRx t.rx :=
      rxTurns_listed (by simp [present]) hrun
    rw [hin] at hlisted
    exact hlisted

/-- Settles O33: an idle reader takes nothing, and from the invariant every burst completes. -/
theorem frameAlwaysPasses : Obligations.FrameAlwaysPasses := by
  refine fun s P => ⟨fun idle => rxTurns_of_idle (s := present (buildFrame P) s) idle _, fun h => ?_⟩
  obtain ⟨t, ht⟩ := h.wireBurst_completes (buildFrame P)
  exact ⟨t, ht, wireBurst_tx ht, (wireBurst_surroundings ht).outgoing⟩

/-! STX_HUNT. -/

/-- Inside a frame any byte is stored, counted and folded (42_frame_reader.md R189). -/
theorem RxAnswer.byte_of_framing {b : Byte} (m : RxAnswer epoch u (.byte b) u') (framing : u.Framing) :
    u'.cnt = u.cnt + 1 ∧ u'.buf = u.buf.write u.cnt.toNat b ∧ u'.lrc = u.lrc ^^^ b ∧ u'.state ≠ .hunt := by
  have notHunt (hunt : u.state = .hunt) : False := RxUnit.not_framing_of_hunt hunt framing
  cases m with
  | start hunt => exact (notHunt hunt).elim
  | noStart _ hunt => exact (notHunt hunt).elim
  | noise _ hunt => exact (notHunt hunt).elim
  | stored => exact ⟨rfl, rfl, rfl, notHunt⟩
  | header => exact ⟨rfl, rfl, rfl, nofun⟩
  | headerOnly => exact ⟨validate_cnt _, validate_buf _, validate_lrc _, by simp⟩
  | frame => exact ⟨validate_cnt _, validate_buf _, validate_lrc _, by simp⟩

/-- Settles O34: the burst is one turn on the byte 0x02. -/
theorem startByteByState : Obligations.StartByteByState := by
  refine fun s => ⟨fun hunt hopen => ?_, fun idle => rxTurns_of_idle (s := present [stx] s) idle _,
    fun framing hopen room => ?_⟩
  · exact rxTurns_succ 0 (rxTurn_startByte (s := present [stx] s) hunt hopen rfl)
  · have busy := RxUnit.Framing.busy framing
    have turn := rxTurn_byte (s := present [stx] s) busy hopen rfl (fun _ => room) rfl
    obtain ⟨hcnt, hbuf, hlrc, hstate⟩ := (rxOnByte_answer (epoch := s.epoch) stx busy).byte_of_framing framing
    exact ⟨_, rxTurns_succ 0 turn, rfl, hcnt, hbuf, hlrc, hstate, rfl⟩

/-- Settles O35: the burst as turns on the agenda, and what a READ that ends `OK` has taken. -/
theorem wireBurstIsRxSteps : Obligations.WireBurstIsRxSteps := by
  refine ⟨run_rx_turns_eq_wireBurst, fun s B h hunt => ⟨?_, fun hframe => ?_⟩⟩
  · rintro ⟨t, hrun, hok, hacc⟩
    have start : ReadProgress s.rx.strict [] (present B s).rx :=
      .hunting hunt rfl (h.r49.busy (by simp [hunt])).1 ⟨List.not_mem_nil, fun _ => rfl⟩
    obtain ⟨taken, hprogress, -⟩ := start.after_turns hrun
    obtain ⟨noise, frame, -, -, hacc', hframe⟩ := hprogress.accepted_of_ok hok
    rwa [Option.some.inj (hacc.symm.trans hacc')]
  · obtain ⟨-, -, -, hfold⟩ := (acceptedFrame_iff B).1 hframe
    obtain ⟨t, hrun, -, hvalid⟩ := wireBurst_of_acceptedFrame h hunt hframe
    exact ⟨t, hrun, hvalid.result.trans (if_pos hfold), hvalid.accumulated⟩

end Sys2Proof.Machine
end

section
/-! A frame with one byte changed (40_checksum.md R125). -/

namespace Sys2Proof.Machine

variable {s : State} {frame : List Byte} {k : Nat} {v : Byte}

/-- Answers that deliver a sequence of its declared size make a reader in HUNT take the whole of it, valid or not. -/
theorem rxTurns_of_delivers_declaredSize {answers rest : List SrcAnswer} (hunt : s.rx.state = .hunt)
    (hres : s.rx.result = .none) (hopen : s.sourceOpen = true) (h4 : 4 ≤ frame.length) (hstart : frame[0]? = some stx)
    (hsize : frame.length = declaredSize frame) (hdel : DeliversFrame answers frame s.rx.tframe.toNat)
    (hin : s.incoming = answers ++ rest) :
    ∃ t : State, rxTurns answers.length s = .next t ∧ t.incoming = rest ∧ t.rx.Validated frame := by
  obtain ⟨header, body, rfl, hthree⟩ : ∃ header body, frame = stx :: (header ++ body) ∧ header.length = 3 := by
    cases frame with
    | nil => cases hstart
    | cons b tail =>
      cases hstart
      rw [List.length_cons] at h4
      exact ⟨tail.take 3, tail.drop 3, by rw [List.take_append_drop], by rw [List.length_take]; omega⟩
  obtain ⟨headerAnswers, bodyAnswers, rfl, hheader, hbody⟩ := hdel
  simp only [List.drop_succ_cons, List.drop_zero, List.take_left' hthree, List.drop_left' hthree] at hheader hbody
  rw [List.cons_append, List.append_assoc] at hin
  rw [List.length_cons, rxTurns_succ _ (rxTurn_startByte hunt hopen hin), List.length_append]
  exact rxTurns_header_body (huntStart_inFrame hres) hopen rfl hheader hbody hthree hsize

/-- A change behind the header leaves the declared size. -/
theorem declaredSize_set (frame : List Byte) (v : Byte) (hk : 3 ≤ k) :
    declaredSize (frame.set k v) = declaredSize frame := by
  have hget {i : Nat} (hi : i < 3) : (frame.set k v).getD i 0 = frame.getD i 0 := by
    rw [List.getD_eq_getElem?_getD, List.getElem?_set_ne (by omega), List.getD_eq_getElem?_getD]
  rw [declaredSize, declaredSize, hget (by omega), hget (by omega)]

/-- Changing one byte of an accepted sequence changes its fold (40_checksum.md R122 (f)). -/
theorem AcceptedFrame.fold_set_ne (h : AcceptedFrame frame) (hk : k < frame.length) (hne : frame[k]? ≠ some v) :
    fold (frame.set k v) 0 ≠ lrcSeed := by
  obtain ⟨-, -, -, hfold⟩ := h
  rw [fold_set (List.getElem?_eq_getElem hk) v 0, hfold]
  intro heq
  have hzero : frame[k] ^^^ v = 0 := by
    have hxor := congrArg (lrcSeed ^^^ ·) heq
    simpa [← BitVec.xor_assoc] using hxor
  exact hne ((List.getElem?_eq_getElem hk).trans (congrArg some (BitVec.xor_eq_zero_iff.1 hzero)))

/-- Settles O36: the changed frame has its declared size, so it is taken whole, and its fold is not the seed. -/
theorem singleByteCorruptionIsDetected : Obligations.SingleByteCorruptionIsDetected := by
  intro s P k v answers rest h hunt hP hk hlt hne hdel hin
  have busy : s.rx.state ≠ .idle := by simp [hunt]
  have hframe := acceptedFrame_buildFrame hP
  obtain ⟨h4, hstart, hsize, -⟩ := (acceptedFrame_iff _).1 hframe
  have hstart' : ((buildFrame P).set k v)[0]? = some stx := by rw [List.getElem?_set_ne (by omega), hstart]
  have hsize' : ((buildFrame P).set k v).length = declaredSize ((buildFrame P).set k v) := by
    rw [List.length_set, declaredSize_set _ v hk, hsize]
  obtain ⟨t, hrun, hrest, hvalid⟩ := rxTurns_of_delivers_declaredSize hunt (h.r49.busy busy).1 (h.source (.inl busy))
    (by rwa [List.length_set]) hstart' hsize' hdel hin
  have hbad := hframe.fold_set_ne (by rwa [buildFrame_length]) hne
  exact ⟨t, hrun, hvalid.idle, hvalid.result.trans (if_neg hbad), hvalid.accumulated, hrest, (rxTurns_run hrun).tx⟩

end Sys2Proof.Machine
end
